-- ==== Sys2Proof/Word.lean ====
section
/-! DEFINITION. The two widths the spec gives values: the byte and the 16-bit half word
(00_scope.md R9: bit 0 is the least significant bit, every value is unsigned). -/

namespace Sys2Proof

/-- An 8-bit value: a report byte, a colour value, a serial byte, a fraction. -/
abbrev Byte := BitVec 8

/-- A 16-bit value: a duration, a remaining-ticks counter, an increment. -/
abbrev Half := BitVec 16

end Sys2Proof
end

