-- ==== Sys2Proof/Config.lean ====
section
/-! DEFINITION. What an implementation fixes and the spec leaves open (00_scope.md R6, R7, R8), and the one
free value. The block's parameters are a field of State that no step changes, so a statement about
every state is a statement about every choice of them. `LED_COUNT` (R5) is the length of the LED array
of State and has no second home here. -/

namespace Sys2Proof

/-- The open parameters of 00_scope.md R6 to R8, except `LED_COUNT`. Which values are legal is
`Config.valid` (WellFormed.lean). -/
structure Config where
  /-- `CODE_FADE`, the command code of FADE (R7). -/
  codeFade : Byte
  /-- `CODE_FADE_ALIAS`, the command code of FADE_ALIAS (R7). -/
  codeFadeAlias : Byte
  /-- `CODE_ARM_RESET`, the command code of ARM_RESET (R7; no default in the spec). -/
  codeArmReset : Byte
  /-- `VER_HI`, the character VERSION puts at status offset 3 (R8). -/
  verHi : Byte
  /-- `VER_LO`, the character VERSION puts at status offset 4 (R8). -/
  verLo : Byte
  /-- `PAT1`, the serial byte that encodes a logical 1 on the LED wire (R6). -/
  pat1 : Byte
  /-- `PAT0`, the serial byte that encodes a logical 0 on the LED wire (R6). -/
  pat0 : Byte
  deriving DecidableEq, Repr

/-- A FREE VALUE: what the transmitter would load at a frame byte offset that names no Color Store byte.
20_memory.md R63 defines `CSByte(k)` only for `k < 3 * LED_COUNT`, and R222 says the transmitter never
reads past it. DESIGN CHOICE (notes/assumptions/6.md): reached only from states that no run reaches. -/
opaque Config.absentByte : Nat → Byte

end Sys2Proof
end

