-- ==== Sys2Proof/Machine/Parameters.lean ====
section
/-! DEFINITION. The constants the spec fixes (00_scope.md R7, R8) and the stand-in parameter values that
`State.reset` and `decodeTableWord` are built with. The stand-ins are those of 95_test_vectors.md
("Conventions"). DESIGN CHOICE (notes/assumptions/1.md). -/

namespace Sys2Proof.Machine

/-- `REPORT_ID = 1`, the report identifier of an accepted report (00_scope.md R8, 30_encoding.md R93). -/
def reportId : Byte := 0x01#8

/-- `CODE_VERSION = 0x76`, ASCII 'v' (00_scope.md R7). -/
def codeVersion : Byte := 0x76#8

/-- `CODE_READ = 0x72`, ASCII 'r' (00_scope.md R7). -/
def codeRead : Byte := 0x72#8

/-- 0x78, ASCII 'x', which the source fixes as an unrecognised code (00_scope.md R7). -/
def codeUnrecognised : Byte := 0x78#8

/-- The parameter values of `State.reset`. DESIGN CHOICE (notes/assumptions/1.md): 95_test_vectors.md's
codes and version digits, and two distinct pattern bytes, which the spec keeps symbolic. -/
def standInConfig : Config where
  codeFade := 0x63#8
  codeFadeAlias := 0x6E#8
  codeArmReset := 0x47#8
  verHi := 0x31#8
  verLo := 0x30#8
  pat1 := 0xFC#8
  pat0 := 0xC0#8

/-- `LED_COUNT` of `State.reset`. DESIGN CHOICE (notes/assumptions/1.md): 8, as in 95_test_vectors.md. -/
def standInLedCount : Nat := 8

end Sys2Proof.Machine
end

