-- ==== Sys2Proof/Syntax.lean ====
section
/-! DEFINITION. The 8-byte report and the commands it encodes: one constructor per row of
spec/opcode_table.json (30_encoding.md R90 to R107). -/

namespace Sys2Proof

/-- An 8-byte report, `p[0]` to `p[7]` (30_encoding.md R90). The command report and the status report
have this same shape (R94). -/
structure Report where
  b0 : Byte
  b1 : Byte
  b2 : Byte
  b3 : Byte
  b4 : Byte
  b5 : Byte
  b6 : Byte
  b7 : Byte
  deriving DecidableEq, Repr

/-- The operand fields of format CMD8, bytes 2 to 7 (30_encoding.md R91): the colour in report order
red, green, blue (R97), the duration already assembled big-endian from `dur_hi` and `dur_lo` (R98), and
the raw destination index, not yet normalised (R99). -/
structure Payload where
  red : Byte
  grn : Byte
  blu : Byte
  dur : Half
  dest : Byte
  deriving DecidableEq, Repr

/-- The commands, one constructor per row of spec/opcode_table.json. Every one carries bytes 2 to 7,
because the default echo (43_commands.md R191) copies the bytes that the command itself ignores (R101). -/
inductive Instr where
  /-- FADE (43_commands.md R196). -/
  | fade (p : Payload)
  /-- FADE_ALIAS (43_commands.md R197). -/
  | fadeAlias (p : Payload)
  /-- ARM_RESET (43_commands.md R198). -/
  | armReset (p : Payload)
  /-- VERSION (43_commands.md R200). -/
  | version (p : Payload)
  /-- READ_LED (43_commands.md R201, R202). -/
  | readLed (p : Payload)
  /-- NOP: an accepted report whose code is none of the five (43_commands.md R199). -/
  | nop (code : Byte) (p : Payload)
  /-- DISCARD: a report whose identifier is not `REPORT_ID` (43_commands.md R192). -/
  | discard (rid code : Byte) (p : Payload)
  deriving DecidableEq, Repr

end Sys2Proof
end

