-- ==== Sys2Proof/WellFormed.lean ====
section
/-! DEFINITION. The legal parameter values (00_scope.md R6 to R8) and the well-formed commands: those
that are the decoding of some report (30_encoding.md R105, R106). -/

namespace Sys2Proof

open Sys2Proof.Machine

/-- The five command codes, in the order of 30_encoding.md R100. -/
def Config.codes (c : Config) : List Byte :=
  [c.codeFade, c.codeFadeAlias, c.codeArmReset, codeVersion, codeRead]

/-- A version character is an ASCII digit, 0x30 to 0x39 (00_scope.md R8). -/
def isDigit (b : Byte) : Bool := 0x30 ≤ b.toNat && b.toNat ≤ 0x39

/-- The constraints the spec puts on the parameters: the five codes pairwise distinct and none equal to
0x78 (R7), `PAT1 != PAT0` (R6), both version characters ASCII digits (R8). -/
def Config.valid (c : Config) : Bool :=
  decide c.codes.Nodup && !c.codes.contains codeUnrecognised && c.pat1 != c.pat0
    && isDigit c.verHi && isDigit c.verLo

/-- A command is well formed when its extra fields keep it apart from the other rows of the table: NOP
carries none of the five codes (30_encoding.md R105) and DISCARD not the report identifier (R106). -/
def WellFormed (c : Config) : Instr → Bool
  | .fade _ => true
  | .fadeAlias _ => true
  | .armReset _ => true
  | .version _ => true
  | .readLed _ => true
  | .nop code _ => !c.codes.contains code
  | .discard rid _ _ => rid != reportId

/-- The command comes from an accepted report (30_encoding.md R93). -/
def Instr.accepted : Instr → Bool
  | .fade _ => true
  | .fadeAlias _ => true
  | .armReset _ => true
  | .version _ => true
  | .readLed _ => true
  | .nop _ _ => true
  | .discard _ _ _ => false

end Sys2Proof
end

