-- ==== Sys2Proof/Decode.lean ====
section
/-! DEFINITION. The decoder, total on any bytes, and the encoder, both from the CMD8 field table
(30_encoding.md R91) and the opcode map (R100). -/

namespace Sys2Proof

open Sys2Proof.Machine

/-- Why bytes are not a report of this block. -/
inductive DecodeError where
  /-- The transfer is not 8 bytes long: not an input of the block (20_memory.md R68; U16). -/
  | notEightBytes
  deriving DecidableEq, Repr

/-- The 8 bytes of a report, the identifier first (30_encoding.md R90). -/
def reportBytes (r : Report) : List Byte := [r.b0, r.b1, r.b2, r.b3, r.b4, r.b5, r.b6, r.b7]

/-- Bytes 2 to 7 as operand fields; the duration is `(p[5] << 8) | p[6]` (30_encoding.md R91, R98). -/
def payloadOf (r : Report) : Payload :=
  { red := r.b2, grn := r.b3, blu := r.b4, dur := r.b5 ++ r.b6, dest := r.b7 }

/-- The report with this identifier, code and operand fields (30_encoding.md R91). -/
def reportOf (rid code : Byte) (p : Payload) : Report :=
  { b0 := rid, b1 := code, b2 := p.red, b3 := p.grn, b4 := p.blu,
    b5 := p.dur.extractLsb' 8 8, b6 := p.dur.extractLsb' 0 8, b7 := p.dest }

/-- Select the command: DISCARD first, then the five codes, NOP last (30_encoding.md R92, R100, R107). -/
def decodeReport (c : Config) (r : Report) : Instr :=
  if r.b0 ≠ reportId then .discard r.b0 r.b1 (payloadOf r)
  else if r.b1 = c.codeFade then .fade (payloadOf r)
  else if r.b1 = c.codeFadeAlias then .fadeAlias (payloadOf r)
  else if r.b1 = c.codeArmReset then .armReset (payloadOf r)
  else if r.b1 = codeVersion then .version (payloadOf r)
  else if r.b1 = codeRead then .readLed (payloadOf r)
  else .nop r.b1 (payloadOf r)

/-- Decode a transfer of any length (30_encoding.md R90, R107). -/
def decode (c : Config) : List Byte → Except DecodeError Instr
  | [b0, b1, b2, b3, b4, b5, b6, b7] => .ok (decodeReport c ⟨b0, b1, b2, b3, b4, b5, b6, b7⟩)
  | _ => .error .notEightBytes

/-- The report that encodes a command (30_encoding.md R91, R100, R105, R106). -/
def encode (c : Config) : Instr → Report
  | .fade p => reportOf reportId c.codeFade p
  | .fadeAlias p => reportOf reportId c.codeFadeAlias p
  | .armReset p => reportOf reportId c.codeArmReset p
  | .version p => reportOf reportId codeVersion p
  | .readLed p => reportOf reportId codeRead p
  | .nop code p => reportOf reportId code p
  | .discard rid code p => reportOf rid code p

/-- The report written as the one 64-bit word `W = {p[0], …, p[7]}`, `p[0]` in bits 63 to 56
(30_encoding.md R92). -/
def reportOfWord (w : BitVec 64) : Report :=
  { b0 := w.extractLsb' 56 8, b1 := w.extractLsb' 48 8, b2 := w.extractLsb' 40 8,
    b3 := w.extractLsb' 32 8, b4 := w.extractLsb' 24 8, b5 := w.extractLsb' 16 8,
    b6 := w.extractLsb' 8 8, b7 := w.extractLsb' 0 8 }

/-- The bytes of the instruction whose bits, numbered as spec/opcode_table.json numbers those of `W`,
are `w`; bits from `nbits` up are 0. -/
def tableBytes (nbits w : Nat) : List Byte :=
  reportBytes (reportOfWord (BitVec.ofNat 64 (w % 2 ^ nbits)))

/-- What the decoder reads from an opcode-table word, with the stand-in command codes
(notes/assumptions/1.md). -/
def decodeTableWord (nbits w : Nat) : Option Instr :=
  (decode standInConfig (tableBytes nbits w)).toOption

end Sys2Proof
end

