-- ==== Sys2Proof/Machine/State.lean ====
section
/-! DEFINITION. Every piece of state the spec gives the block (10_state.md), the observations it defines
(`WIRE`, the GET_REPORT results), the events that reach the block (00_scope.md R12), and the reset value
(10_state.md R44). Plain data only. -/

namespace Sys2Proof.Machine

/-- One value per colour channel, in storage order green, red, blue (10_state.md R20, R23). -/
structure PerChannel (α : Type) where
  g : α
  r : α
  b : α
  deriving DecidableEq, Repr

/-- A colour channel; channel numbers 0, 1, 2 in this order (10_state.md R23). -/
inductive Channel where
  | g
  | r
  | b
  deriving DecidableEq, Repr

/-- A colour in storage order: a LedSlot or a target triple (10_state.md R20, R25). -/
abbrev Colour := PerChannel Byte

/-- Everything the block holds for one LED: its LedSlot (R20) and its FadeTarget (R25). -/
structure Led where
  /-- `CS[i]`, the colour the LED displays (R20). -/
  cs : Colour
  /-- `TGT[i]`, the stored target colour (R25). -/
  tgt : Colour
  /-- `REM[i]`, the remaining-ticks counter; 0 means IDLE (R26). -/
  rem : Half
  /-- `INC[i].c`: bits 15 to 1 the rate times 256, bit 0 the direction (R27). -/
  inc : PerChannel Half
  /-- `FRAC[i].c`, the fraction accumulator (R28). -/
  frac : Colour
  deriving DecidableEq, Repr

/-- `STG`, the staging record (10_state.md R30). -/
structure Staging where
  colour : Colour
  /-- `STG.dur`, the requested duration in ticks. -/
  dur : Half
  /-- `STG.dest`, the normalised destination: 0 for broadcast, else an LED index. -/
  dest : Byte
  deriving DecidableEq, Repr

/-- The transmitter's registers (10_state.md R34 to R36). -/
structure Tx where
  /-- `TX_EN`: the completion signal is unmasked (R34). -/
  en : Bool
  /-- `TX_SRC`: frame byte offset of the next colour byte to load, 10 bits (R35). -/
  src : BitVec 10
  /-- `TX_CUR`: the current output byte, shifted left as its bits are sent (R36). -/
  cur : Byte
  /-- `TX_BITS`: the number of bits of `TX_CUR` not yet encoded, 4 bits (R36). -/
  bits : BitVec 4
  deriving DecidableEq, Repr

/-- One thing that happens while an immediate set is being executed (20_memory.md R77). -/
inductive Micro where
  /-- The completion handler preempts the command between two of its byte writes. -/
  | handler
  /-- The command's write to the Color Store byte at frame byte offset `k` takes place. -/
  | write (k : Nat)
  deriving DecidableEq, Repr

/-- The events of 00_scope.md R12, the block's whole interface. -/
inductive Event where
  /-- RESET (70_reset_and_hazards.md R250). -/
  | reset
  /-- SET_REPORT with these payload bytes (43_commands.md R190). `interleave` is the environment's choice,
  which the spec leaves open, of the order of the command's Color Store byte writes and of the handler
  steps that fall between them (20_memory.md R77). -/
  | setReport (bytes : List Byte) (interleave : List Micro)
  /-- GET_REPORT (43_commands.md R204). -/
  | getReport
  /-- TICK (41_fade_tick.md R140). -/
  | tick
  /-- TX_BYTE_COMPLETE (42_transmitter.md R166). -/
  | txByteComplete
  /-- RESTART (60_exceptions.md R240). -/
  | restart
  deriving DecidableEq, Repr

/-- The state of the block (10_state.md), its parameters, its observations, and the environment's
pending events. -/
structure State where
  /-- The parameters of 00_scope.md R6 to R8; no step changes them. -/
  cfg : Config
  /-- The LEDs in index order, LED 1 first; the length is `LED_COUNT` (00_scope.md R5, 10_state.md R20). -/
  leds : List Led
  /-- `STG` (R30). -/
  stg : Staging
  /-- `STATUS[0]` to `STATUS[7]` (R32). -/
  status : Report
  /-- `RST_ARMED` (R33). -/
  rstArmed : Bool
  /-- `TX_EN`, `TX_SRC`, `TX_CUR`, `TX_BITS` (R34 to R36). -/
  tx : Tx
  /-- `FAULT_OVERRUN`, sticky (R38). -/
  faultOverrun : Bool
  /-- `WIRE`, the serial bytes sent since RESET, in order: an observation that no rule reads (R37). -/
  wire : List Byte
  /-- The model's own: RESTART has happened and no RESET since, so the bootloader runs and the run has
  ended (60_exceptions.md R240, 93_implementation_defined.md U10). -/
  inBootloader : Bool
  /-- The model's own: the results of the GET_REPORTs so far, in order, an observation (43_commands.md
  R204, 70_reset_and_hazards.md R270). -/
  replies : List Report
  /-- The model's own: the events the environment will deliver, in order (00_scope.md R12). -/
  inputs : List Event
  /-- The model's own free choice: how the byte writes of the command now executing interleave with the
  handler (20_memory.md R77). Read by immediate sets only. -/
  interleave : List Micro
  deriving DecidableEq, Repr

/-- The faults of the model. -/
inductive Fault where
  /-- `TickOverrun`, the one model-level fault of the spec (60_exceptions.md R224): a TICK while `TX_EN = 1`.
  No step stops with it: 70_reset_and_hazards.md R262 gives the TICK an effect, which the step takes, and
  records the fault in `FAULT_OVERRUN`; `faultOf` (Safety.lean) reads it from there. UNSAFE in what follows
  such a TICK: R262 says a model must not rely on that continuation (notes/assumptions/5.md). -/
  | tickOverrun
  deriving DecidableEq, Repr

/-- What a step may refuse: inputs the spec says have no step. -/
inductive Refusal where
  /-- Raised by no meaning of this model: every command of the table has its meaning. Safe. -/
  | notModelled (mnemonic : String)
  /-- Raised by SET_REPORT with a payload that is not 8 bytes long, which is not an input of the block
  (20_memory.md R68, 70_reset_and_hazards.md R271, 93_implementation_defined.md U16). Safe while the
  environment keeps to R271 (notes/assumptions/11.md). -/
  | reportNotEightBytes
  /-- Raised by RESTART while `RST_ARMED = 0`: the event is not enabled and has no step
  (60_exceptions.md R240, 70_reset_and_hazards.md R271, 93_implementation_defined.md U19). Safe while the
  environment keeps to R271 (notes/assumptions/11.md). -/
  | restartNotArmed
  /-- Raised by TX_BYTE_COMPLETE while `TX_EN = 0`: the signal is masked, and the event is not enabled and
  has no step (42_transmitter.md R166, 70_reset_and_hazards.md R271, 93_implementation_defined.md U19). Safe
  while the environment keeps to R271 (notes/assumptions/10.md). -/
  | completionMasked
  /-- Raised by any event but RESET after a RESTART: the run has ended and the bootloader is outside the
  block (60_exceptions.md R240, 93_implementation_defined.md U10). Safe. -/
  | runEnded
  deriving DecidableEq, Repr

/-- One LED at reset: dark and IDLE, every field zero (10_state.md R44). -/
def ledReset : Led :=
  { cs := ⟨0, 0, 0⟩, tgt := ⟨0, 0, 0⟩, rem := 0, inc := ⟨0, 0, 0⟩, frac := ⟨0, 0, 0⟩ }

/-- The block with these parameters and this `LED_COUNT` right after RESET: every state element zero, the
transmitter idle, `WIRE` empty (10_state.md R44), and nothing placed by the environment. -/
def State.resetWith (c : Config) (ledCount : Nat) : State :=
  { cfg := c
    leds := List.replicate ledCount ledReset
    stg := { colour := ⟨0, 0, 0⟩, dur := 0, dest := 0 }
    status := ⟨0, 0, 0, 0, 0, 0, 0, 0⟩
    rstArmed := false
    tx := { en := false, src := 0, cur := 0, bits := 0 }
    faultOverrun := false
    wire := []
    inBootloader := false
    replies := []
    inputs := []
    interleave := [] }

/-- The machine right after reset (10_state.md R44), with the stand-in parameters
(notes/assumptions/1.md). -/
def State.reset : State := State.resetWith standInConfig standInLedCount

end Sys2Proof.Machine
end

