-- ==== Sys2Proof/Machine/Ops.lean ====
section
/-! DEFINITION. The named operations over State and over the three channels of a colour; every read and
write of the block's state goes through these. The block takes no exceptions (60_exceptions.md R220), so
there is no operation for taking one; the entry of its one interrupt saves nothing (R228) and is the step
`txByteComplete` of Machine/Transmitter.lean. -/

namespace Sys2Proof.Machine

/-- The state with the LED array replaced. -/
def State.withLeds (s : State) (x : List Led) : State := { s with leds := x }

/-- The state with `STG` replaced. -/
def State.withStg (s : State) (x : Staging) : State := { s with stg := x }

/-- The state with the status report replaced. -/
def State.withStatus (s : State) (x : Report) : State := { s with status := x }

/-- The state with `RST_ARMED` replaced. -/
def State.withRstArmed (s : State) (x : Bool) : State := { s with rstArmed := x }

/-- The state with the transmitter's registers replaced. -/
def State.withTx (s : State) (x : Tx) : State := { s with tx := x }

/-- The state with `FAULT_OVERRUN` replaced. -/
def State.withFaultOverrun (s : State) (x : Bool) : State := { s with faultOverrun := x }

/-- The state with `WIRE` replaced. -/
def State.withWire (s : State) (x : List Byte) : State := { s with wire := x }

/-- The state with the end-of-run mark replaced. -/
def State.withInBootloader (s : State) (x : Bool) : State := { s with inBootloader := x }

/-- The state with the GET_REPORT results replaced. -/
def State.withReplies (s : State) (x : List Report) : State := { s with replies := x }

/-- The state with the pending events replaced. -/
def State.withInputs (s : State) (x : List Event) : State := { s with inputs := x }

/-- The state with the interleaving choice replaced. -/
def State.withInterleave (s : State) (x : List Micro) : State := { s with interleave := x }

/-- `LED_COUNT` (00_scope.md R5). -/
def State.ledCount (s : State) : Nat := s.leds.length

/-- One channel of a triple. -/
def PerChannel.get {α : Type} (v : PerChannel α) : Channel → α
  | .g => v.g
  | .r => v.r
  | .b => v.b

/-- A triple with one channel replaced. -/
def PerChannel.set {α : Type} (v : PerChannel α) (x : α) : Channel → PerChannel α
  | .g => { v with g := x }
  | .r => { v with r := x }
  | .b => { v with b := x }

/-- The triple whose channel `c` is `f c`. -/
def PerChannel.of {α : Type} (f : Channel → α) : PerChannel α := ⟨f .g, f .r, f .b⟩

/-- LED `n`, for `n` from 1 to `LED_COUNT`; index 0 is no LED (10_state.md R21). -/
def State.led? (s : State) (n : Nat) : Option Led :=
  match n with
  | 0 => none
  | i + 1 => s.leds[i]?

/-- Apply `f` to the LED a normalised destination selects, or to every LED for the broadcast selector 0
(40_begin_fade.md R120, R128). -/
def State.onLeds (s : State) (n : Nat) (f : Led → Led) : State :=
  match n with
  | 0 => s.withLeds (s.leds.map f)
  | i + 1 => s.withLeds (s.leds.modify i f)

/-- The LED index a frame byte offset lies in: `1 + (k div 3)` (20_memory.md R63). -/
def ledOfOffset (k : Nat) : Nat := 1 + k / 3

/-- The channel a frame byte offset names: `k mod 3` is 0 for green, 1 for red, 2 for blue
(20_memory.md R63). -/
def channelOfOffset (k : Nat) : Channel :=
  match k % 3 with
  | 0 => .g
  | 1 => .r
  | _ => .b

/-- `CSByte(k)`, the Color Store byte at frame byte offset `k` (20_memory.md R63); past the last LED, a
free value (notes/assumptions/6.md). -/
def State.csByte (s : State) (k : Nat) : Byte :=
  match s.led? (ledOfOffset k) with
  | some l => l.cs.get (channelOfOffset k)
  | none => Config.absentByte k

/-- Write one byte of a LedSlot, the one at frame byte offset `k`: the unit that is atomic against the
handler (20_memory.md R70). -/
def State.writeCsByte (s : State) (k : Nat) (x : Byte) : State :=
  s.onLeds (ledOfOffset k) fun l => { l with cs := l.cs.set x (channelOfOffset k) }

/-- `emit(b)`: append a serial byte to `WIRE` (42_transmitter.md R161). -/
def State.emit (s : State) (x : Byte) : State := s.withWire (s.wire ++ [x])

/-- RESET's effect on the block: every state element to its reset value and `WIRE` emptied
(70_reset_and_hazards.md R250). The parameters stay, and so do the model's own records of the
environment: the events still to come and the reports the host has read. -/
def resetBlock (s : State) : State :=
  ((State.resetWith s.cfg s.ledCount).withInputs s.inputs).withReplies s.replies

end Sys2Proof.Machine
end

