-- ==== Sys2Proof/Machine/Flags.lean ====
section
/-! DEFINITION. The block has no condition codes (10_state.md R39). What plays their part: the direction
bit and the rate packed into an increment, and the per-LED predicate RAMPING, which is computed and not
stored. -/

namespace Sys2Proof.Machine

/-- The direction bit of an increment, bit 0: 1 means increasing (10_state.md R27). -/
def direction (inc : Half) : Bool := inc.getLsbD 0

/-- The rate of an increment, the increment with its direction bit cleared, in units of 1/256 of a channel
step per tick (41_fade_tick.md R144). -/
def magnitude (inc : Half) : Half := inc &&& 0xFFFE#16

/-- Pack a quotient and a direction: the quotient stays in place and its bit 0 becomes the direction
(40_begin_fade.md R126). -/
def packIncrement (q : Half) (dir : Bool) : Half := (q &&& 0xFFFE#16) ||| (if dir then 1#16 else 0#16)

/-- The LED is RAMPING: its remaining-ticks counter is not 0 (10_state.md R39, 41_fade_tick.md R150). -/
def ramping (l : Led) : Bool := l.rem != 0

end Sys2Proof.Machine
end

