-- ==== Sys2Proof/Machine/Fade.lean ====
section
/-! DEFINITION. The fade accumulator: BEGIN_FADE for one LED with a non-zero duration (40_begin_fade.md) and
one tick of one LED (41_fade_tick.md). LEDs do not interact, so both are functions of one LED. -/

namespace Sys2Proof.Machine

/-- The unsigned distance between two channel values (40_begin_fade.md R123). -/
def distance (target cur : Byte) : Nat :=
  if cur.toNat ≤ target.toNat then target.toNat - cur.toNat else cur.toNat - target.toNat

/-- The increment of one channel for a fade of `dur` ticks, `dur` not 0: the distance times 256, divided
by the duration with the remainder dropped, with the direction in bit 0 (40_begin_fade.md R123 to R126). -/
def increment (target cur : Byte) (dur : Half) : Half :=
  packIncrement (BitVec.ofNat 16 (distance target cur * 256 / dur.toNat)) (decide (cur.toNat < target.toNat))

/-- Ramp set-up of one LED, for a duration that is not 0; the Color Store is not written
(40_begin_fade.md R122, R127). -/
def rampSetup (target : Colour) (dur : Half) (l : Led) : Led :=
  { l with
    inc := PerChannel.of fun c => increment (target.get c) (l.cs.get c) dur
    frac := ⟨0, 0, 0⟩
    tgt := target
    rem := dur }

/-- The immediate set of one LED: the colour at once and no fade; the rest of the FadeTarget stays
(40_begin_fade.md R121). -/
def setNow (target : Colour) (l : Led) : Led := { l with cs := target, rem := 0 }

/-- The 16-bit sum of the fraction and the rate (41_fade_tick.md R145). -/
def rampSum (inc : Half) (frac : Byte) : Half := frac.zeroExtend 16 + magnitude inc

/-- The new fraction, the low 8 bits of the sum (41_fade_tick.md R145). -/
def rampFrac (inc : Half) (frac : Byte) : Byte := (rampSum inc frac).extractLsb' 0 8

/-- The channel value moved by the high 8 bits of the sum, up or down by the direction bit
(41_fade_tick.md R145, R146). -/
def rampValue (inc : Half) (frac cur : Byte) : Byte :=
  if direction inc then cur + (rampSum inc frac).extractLsb' 8 8
  else cur - (rampSum inc frac).extractLsb' 8 8

/-- A non-final ramp step of all three channels (41_fade_tick.md R144 to R146). -/
def ramp (l : Led) : Led :=
  { l with
    cs := PerChannel.of fun c => rampValue (l.inc.get c) (l.frac.get c) (l.cs.get c)
    frac := PerChannel.of fun c => rampFrac (l.inc.get c) (l.frac.get c) }

/-- The final tick: the stored target becomes the colour (41_fade_tick.md R143). -/
def snap (l : Led) : Led := { l with cs := l.tgt }

/-- The counter of a RAMPING LED counts down (41_fade_tick.md R142). -/
def countDown (l : Led) : Led := { l with rem := l.rem - 1 }

/-- FADE_STEP: one tick of one LED (41_fade_tick.md R141, R142). -/
def fadeStep (l : Led) : Led :=
  if ramping l then
    if ramping (countDown l) then ramp (countDown l) else snap (countDown l)
  else l

/-- The fade pass of a TICK over every LED (41_fade_tick.md R140). -/
def fadePass (s : State) : State := s.withLeds (s.leds.map fadeStep)

end Sys2Proof.Machine
end

