-- ==== Sys2Proof/Machine/Operands.lean ====
section
/-! DEFINITION. The operand forms of a command report (30_encoding.md, section 4): the destination and the
colour. The duration is assembled by the decoder (R98). -/

namespace Sys2Proof.Machine

/-- The destination operand: a raw index above `LED_COUNT` is normalised to the broadcast selector 0; the
comparison is unsigned (30_encoding.md R99). -/
def normalise (ledCount : Nat) (raw : Byte) : Byte := if raw.toNat > ledCount then 0 else raw

/-- The colour operand translated from report order red, green, blue to storage order green, red, blue
(30_encoding.md R97, 20_memory.md R65). -/
def colourOf (p : Payload) : Colour := { g := p.grn, r := p.red, b := p.blu }

/-- A colour written back into a status report at offsets 2, 3, 4 in report order red, green, blue
(30_encoding.md R97). -/
def putColour (st : Report) (c : Colour) : Report := { st with b2 := c.r, b3 := c.g, b4 := c.b }

end Sys2Proof.Machine
end

