-- ==== Sys2Proof/Machine/Transmitter.lean ====
section
/-! DEFINITION. The bit-stream transmitter: TX_ARM and the completion handler TX_BYTE_COMPLETE
(42_transmitter.md). -/

namespace Sys2Proof.Machine

/-- `enc`: the pattern byte of one colour bit (30_encoding.md R96). -/
def pattern (c : Config) (bit : Bool) : Byte := if bit then c.pat1 else c.pat0

/-- TX_ARM: start a frame; nothing is emitted and `TX_CUR` is not written (42_transmitter.md R165). -/
def txArm (s : State) : State := s.withTx { s.tx with en := true, src := 0, bits := 0 }

/-- Load the next source byte from the Color Store (42_transmitter.md R166, R167). -/
def txLoad (s : State) : State :=
  s.withTx { s.tx with cur := s.csByte s.tx.src.toNat, src := s.tx.src + 1, bits := 8 }

/-- Emit the pattern byte of bit 7 of `TX_CUR`, shift, count down (42_transmitter.md R166, R168). -/
def txShift (s : State) : State :=
  (s.withTx { s.tx with cur := s.tx.cur <<< 1, bits := s.tx.bits - 1 }).emit
    (pattern s.cfg (s.tx.cur.getLsbD 7))

/-- The last completion of a frame: the transmitter masks its own signal and emits nothing
(42_transmitter.md R169). -/
def txFinish (s : State) : State := s.withTx { s.tx with en := false }

/-- Every colour byte of the frame has been loaded: `TX_SRC = 3 * LED_COUNT` (10_state.md R35). -/
def txExhausted (s : State) : Bool := s.tx.src.toNat == 3 * s.ledCount

/-- A step of the completion handler (42_transmitter.md R166). While `TX_EN = 0` the signal is masked and a
completion has no effect (60_exceptions.md R225): as an event it is then refused (`completion`), and an entry
of an interleaving stands for no step (notes/assumptions/10.md). -/
def txByteComplete (s : State) : State :=
  if s.tx.en then
    if s.tx.bits = 0 then
      if txExhausted s then txFinish s else txShift (txLoad s)
    else txShift s
  else s

end Sys2Proof.Machine
end

