-- ==== Sys2Proof/Machine/FadeCommands.lean ====
section
/-! DEFINITION. The meanings of FADE and FADE_ALIAS (43_commands.md R196, R197) over BEGIN_FADE
(40_begin_fade.md R120, R121, R128), with the interleaving an immediate set admits (20_memory.md R77). -/

namespace Sys2Proof.Machine

/-- The Color Store byte at frame byte offset `k` is one the destination `n` covers. -/
def covers (n k : Nat) : Bool := n == 0 || n == ledOfOffset k

/-- One thing that happens during an immediate set of the destination `n`: a handler step, or the write of
one of the command's bytes. An offset the command does not write does nothing (20_memory.md R77). -/
def microStep (n : Nat) (target : Colour) (s : State) : Micro → State
  | .handler => txByteComplete s
  | .write k => if covers n k then s.writeCsByte k (target.get (channelOfOffset k)) else s

/-- What happens, in order, before an immediate set's remaining byte writes (20_memory.md R77). -/
def microRun (n : Nat) (target : Colour) (s : State) (ms : List Micro) : State :=
  ms.foldl (microStep n target) s

/-- BEGIN_FADE with duration 0: the chosen interleaving of byte writes and handler steps, then every byte
of the command that is not yet written, and `REM` cleared (40_begin_fade.md R121, 20_memory.md R77).
Writing a byte twice is writing it once, since its value is the same. -/
def immediateSet (n : Nat) (target : Colour) (s : State) : State :=
  (microRun n target s s.interleave).onLeds n (setNow target)

/-- BEGIN_FADE (40_begin_fade.md R120). -/
def beginFade (n : Nat) (target : Colour) (dur : Half) (s : State) : State :=
  if dur = 0 then immediateSet n target s else s.onLeds n (rampSetup target dur)

/-- The staging write of FADE and FADE_ALIAS (43_commands.md R196). -/
def stage (p : Payload) (s : State) : State :=
  s.withStg { colour := colourOf p, dur := p.dur, dest := normalise s.ledCount p.dest }

/-- What FADE and FADE_ALIAS do after the default echo: stage the command, then BEGIN_FADE from the staging
record (43_commands.md R196). -/
def fadeCommand (p : Payload) (s : State) : State :=
  beginFade (stage p s).stg.dest.toNat (stage p s).stg.colour (stage p s).stg.dur (stage p s)

/-- FADE (43_commands.md R196), after the default echo (R191). -/
def execFade (p : Payload) (s : State) : Host.Outcome State Fault Refusal :=
  .next (fadeCommand p (s.withStatus (encode s.cfg (.fade p))))

/-- FADE_ALIAS: literally FADE, with its own code echoed (43_commands.md R197, R191). -/
def execFadeAlias (p : Payload) (s : State) : Host.Outcome State Fault Refusal :=
  .next (fadeCommand p (s.withStatus (encode s.cfg (.fadeAlias p))))

end Sys2Proof.Machine
end

