-- ==== Sys2Proof/Machine/ReportCommands.lean ====
section
/-! DEFINITION. The meanings of the commands that touch no colour and no fade: ARM_RESET, VERSION, READ_LED,
NOP and DISCARD (43_commands.md R192, R198 to R202). -/

namespace Sys2Proof.Machine

/-- ARM_RESET (43_commands.md R198), after the default echo (R191). -/
def execArmReset (p : Payload) (s : State) : Host.Outcome State Fault Refusal :=
  .next ((s.withStatus (encode s.cfg (.armReset p))).withRstArmed true)

/-- VERSION: the echo with the two version characters at offsets 3 and 4 (43_commands.md R200). -/
def execVersion (p : Payload) (s : State) : Host.Outcome State Fault Refusal :=
  .next (s.withStatus { encode s.cfg (.version p) with b3 := s.cfg.verHi, b4 := s.cfg.verLo })

/-- The colour READ_LED answers with: that of the LED the resolved index names (43_commands.md R201), or
the staging colour for index 0 (R202). -/
def readColour (n : Nat) (s : State) : Colour :=
  match s.led? n with
  | some l => l.cs
  | none => s.stg.colour

/-- READ_LED: the echo with the live colour, zero duration and the resolved index at offsets 2 to 7
(43_commands.md R201, R202). -/
def execReadLed (p : Payload) (s : State) : Host.Outcome State Fault Refusal :=
  .next (s.withStatus
    { putColour (encode s.cfg (.readLed p)) (readColour (normalise s.ledCount p.dest).toNat s) with
      b5 := 0, b6 := 0, b7 := normalise s.ledCount p.dest })

/-- NOP: the default echo and nothing else (43_commands.md R199). -/
def execNop (code : Byte) (p : Payload) (s : State) : Host.Outcome State Fault Refusal :=
  .next (s.withStatus (encode s.cfg (.nop code p)))

/-- DISCARD: no state change at all (43_commands.md R192). -/
def execDiscard (_rid _code : Byte) (_p : Payload) (s : State) : Host.Outcome State Fault Refusal :=
  .next s

end Sys2Proof.Machine
end

