-- ==== Sys2Proof/Machine/Dispatch.lean ====
section
/-! DEFINITION. exec: the meaning of every command, one arm per constructor of Instr. -/

namespace Sys2Proof.Machine

def exec (i : Instr) (s : State) : Host.Outcome State Fault Refusal :=
  match i with
  | .fade p => Sys2Proof.Machine.execFade p s
  | .fadeAlias p => Sys2Proof.Machine.execFadeAlias p s
  | .armReset p => Sys2Proof.Machine.execArmReset p s
  | .version p => Sys2Proof.Machine.execVersion p s
  | .readLed p => Sys2Proof.Machine.execReadLed p s
  | .nop code p => Sys2Proof.Machine.execNop code p s
  | .discard rid code p => Sys2Proof.Machine.execDiscard rid code p s

end Sys2Proof.Machine
end

