-- ==== Sys2Proof/Machine/Events.lean ====
section
/-! DEFINITION. What each event of 00_scope.md R12 does to the block. -/

namespace Sys2Proof.Machine

/-- SET_REPORT: decode the report and execute its command (43_commands.md R190). A transfer that is not
8 bytes long is not an input of the block (20_memory.md R68). -/
def setReport (bytes : List Byte) (interleave : List Micro) (s : State) :
    Host.Outcome State Fault Refusal :=
  match decode s.cfg bytes with
  | .ok i => exec i (s.withInterleave interleave)
  | .error .notEightBytes => .refused .reportNotEightBytes

/-- GET_REPORT: the host receives the status report and nothing else changes (43_commands.md R204). -/
def getReport (s : State) : State := s.withReplies (s.replies ++ [s.status])

/-- A TICK while a frame is streaming marks the state as faulted (70_reset_and_hazards.md R262). -/
def flagOverrun (s : State) : State := if s.tx.en then s.withFaultOverrun true else s

/-- TICK: the overrun check, the fade pass, then the start of the transmitter (41_fade_tick.md R140). -/
def tick (s : State) : State := txArm (fadePass (flagOverrun s))

/-- TX_BYTE_COMPLETE, enabled while `TX_EN = 1` (42_transmitter.md R166): one step of the handler. -/
def completion (s : State) : Host.Outcome State Fault Refusal :=
  match s.tx.en with
  | true => .next (txByteComplete s)
  | false => .refused .completionMasked

/-- RESTART, enabled while `RST_ARMED = 1`: the effect of RESET, and the run ends (60_exceptions.md R240). -/
def restart (s : State) : Host.Outcome State Fault Refusal :=
  match s.rstArmed with
  | true => .next ((resetBlock s).withInBootloader true)
  | false => .refused .restartNotArmed

/-- An event of a run that has not ended. -/
def deliverRunning (e : Event) (s : State) : Host.Outcome State Fault Refusal :=
  match e with
  | .reset => .next (resetBlock s)
  | .setReport bytes interleave => setReport bytes interleave s
  | .getReport => .next (getReport s)
  | .tick => .next (tick s)
  | .txByteComplete => completion s
  | .restart => restart s

/-- After a RESTART nothing happens until a RESET (60_exceptions.md R240). -/
def deliver (e : Event) (s : State) : Host.Outcome State Fault Refusal :=
  if s.inBootloader && e != .reset then .refused .runEnded else deliverRunning e s

/-- Take the next event the environment delivers; with none, the block waits (70_reset_and_hazards.md
R251). -/
def nextEvent (s : State) : Host.Outcome State Fault Refusal :=
  match s.inputs with
  | [] => .next s
  | e :: rest => deliver e (s.withInputs rest)

/-- The state whose next event is this SET_REPORT, delivered whole (no handler step falls inside it), in a
run that has not ended (notes/assumptions/8.md). -/
def placeReport (s : State) (bytes : List Byte) : State :=
  (s.withInputs (.setReport bytes [] :: s.inputs)).withInBootloader false

end Sys2Proof.Machine
end

