-- ==== Sys2Proof/Machine/Step.lean ====
section
/-! DEFINITION. One step of the machine: the next event of the environment, executed whole. -/

namespace Sys2Proof.Machine

/-- One step (00_scope.md R12: each event is one atomic step; for the exception of 20_memory.md R77 see
`immediateSet`). -/
def step (s : State) : Host.Outcome State Fault Refusal := nextEvent s

/-- The state whose next step executes the command whose opcode-table word is `w`
(notes/assumptions/8.md). -/
def State.withFetchWord (s : State) (nbits w : Nat) : State := placeReport s (tableBytes nbits w)

end Sys2Proof.Machine
end

