-- ==== Sys2Proof/Safety.lean ====
section
/-! DEFINITION. What counts as a good state and a good run (10_state.md R43, 70_reset_and_hazards.md R260,
R262, R270), and the spec's closed forms that statements compare the machine with (41_fade_tick.md R148,
42_transmitter.md R171). -/

namespace Sys2Proof.Machine

/-- The model-level fault of a state: `TickOverrun` is recorded in `FAULT_OVERRUN` (60_exceptions.md R224,
70_reset_and_hazards.md R262). -/
def faultOf (s : State) : Option Fault := if s.faultOverrun then some .tickOverrun else none

/-- No handler step is enabled: `TX_EN = 0` (70_reset_and_hazards.md R270). -/
def Quiescent (s : State) : Prop := s.tx.en = false

/-- A channel of a RAMPING LED is on course: the ticks still to come before the final one leave it strictly
on the starting side of its target, or it is at its target and does not move (10_state.md R43,
41_fade_tick.md R149). All quantities are natural numbers, in units of 1/256 of a channel step. -/
abbrev ChannelOnCourse (rem inc : Half) (frac cur target : Byte) : Prop :=
  if direction inc then
    cur.toNat * 256 + frac.toNat + (magnitude inc).toNat * (rem.toNat - 1) < target.toNat * 256
  else
    target.toNat * 256 + frac.toNat + (magnitude inc).toNat * (rem.toNat - 1) < cur.toNat * 256 ∨
      ((magnitude inc).toNat = 0 ∧ frac.toNat = 0 ∧ cur = target)

/-- An LED is IDLE, or each of its channels is on course. -/
abbrev LedOnCourse (l : Led) : Prop :=
  l.rem = 0 ∨
    (ChannelOnCourse l.rem l.inc.g l.frac.g l.cs.g l.tgt.g ∧
      ChannelOnCourse l.rem l.inc.r l.frac.r l.cs.r l.tgt.r ∧
      ChannelOnCourse l.rem l.inc.b l.frac.b l.cs.b l.tgt.b)

/-- The transmitter's cursor is in range: `TX_BITS` at most 8, `TX_SRC` at most `3 * LED_COUNT`
(10_state.md R43 d), and a byte being sent has been loaded, so the offset of the next is not 0. -/
abbrev CursorInRange (s : State) : Prop :=
  s.tx.bits.toNat ≤ 8 ∧ s.tx.src.toNat ≤ 3 * s.ledCount ∧ (s.tx.bits ≠ 0 → s.tx.src ≠ 0)

/-- The invariant of every run: legal parameters (00_scope.md R5 to R7), the cursor in range, the staged
destination normalised (10_state.md R30), and every LED on course (10_state.md R43). -/
abbrev State.Inv (s : State) : Prop :=
  s.cfg.valid = true ∧ 1 ≤ s.ledCount ∧ s.ledCount ≤ 255 ∧ CursorInRange s ∧
    s.stg.dest.toNat ≤ s.ledCount ∧ ∀ l ∈ s.leds, LedOnCourse l

/-- The increment BEGIN_FADE stores, as a natural number: the floor of `256 * dist / dur` with bit 0
replaced by the direction (40_begin_fade.md R123 to R126). -/
def expectedIncrement (target cur : Byte) (dur : Half) : Nat :=
  256 * ((target.toNat - cur.toNat) + (cur.toNat - target.toNat)) / dur.toNat / 2 * 2 +
    (if cur.toNat < target.toNat then 1 else 0)

/-- The rate of that increment (41_fade_tick.md R148, the `M` of the closed form). -/
def expectedRate (target cur : Byte) (dur : Half) : Nat :=
  256 * ((target.toNat - cur.toNat) + (cur.toNat - target.toNat)) / dur.toNat / 2 * 2

/-- The eight pattern bytes of a colour byte, most significant bit first (42_transmitter.md R164). -/
def patternsOf (c : Config) (v : Byte) : List Byte :=
  [7, 6, 5, 4, 3, 2, 1, 0].map fun i => if v.getLsbD i then c.pat1 else c.pat0

/-- `FRAME(CS)`: for each LED in index order its green, red and blue byte, each as eight pattern bytes
(42_transmitter.md R162, R163, R171). -/
def frameOf (s : State) : List Byte :=
  s.leds.flatMap fun l => patternsOf s.cfg l.cs.g ++ patternsOf s.cfg l.cs.r ++ patternsOf s.cfg l.cs.b

/-- The pattern bytes the frame in progress still owes to the wire. -/
def bytesOwed (s : State) : Nat :=
  if s.tx.en then s.tx.bits.toNat + 8 * (3 * s.ledCount - s.tx.src.toNat) else 0

/-- The completions that end the frame in progress: one per byte still owed and one that disables the
transmitter (42_transmitter.md R170). -/
def completionsOwed (s : State) : Nat := if s.tx.en then bytesOwed s + 1 else 0

/-- The handler steps an environment places inside a SET_REPORT: those of the interleaving, when the report
is an immediate set, the one command they fall inside of (20_memory.md R77, notes/assumptions/9.md). -/
def handlerStepsIn (c : Config) (bytes : List Byte) (interleave : List Micro) : Nat :=
  match decode c bytes with
  | .ok (.fade p) => if p.dur = 0 then interleave.count .handler else 0
  | .ok (.fadeAlias p) => if p.dur = 0 then interleave.count .handler else 0
  | .ok _ => 0
  | .error _ => 0

/-- The premise `DrainBeforeTick` (70_reset_and_hazards.md R260) on events to come, for a transmitter that
still needs `owed` handler steps: every TICK comes after all the handler steps of the frame before it,
those inside a command among them. -/
def DrainBeforeTick (c : Config) (ledCount : Nat) : Nat → List Event → Bool
  | _, [] => true
  | _, .reset :: es => DrainBeforeTick c ledCount 0 es
  | owed, .setReport bytes ms :: es => DrainBeforeTick c ledCount (owed - handlerStepsIn c bytes ms) es
  | owed, .getReport :: es => DrainBeforeTick c ledCount owed es
  | owed, .tick :: es => owed == 0 && DrainBeforeTick c ledCount (24 * ledCount + 1) es
  | owed, .txByteComplete :: es => DrainBeforeTick c ledCount (owed - 1) es
  | _, .restart :: es => DrainBeforeTick c ledCount 0 es

/-- The event can occur in this state (70_reset_and_hazards.md R270, R271): a report is 8 bytes long, a
completion comes only while `TX_EN = 1`, a RESTART only while `RST_ARMED = 1`, and after a RESTART the run
has ended until a RESET. -/
def Enabled (s : State) : Event → Bool
  | .reset => true
  | .setReport bytes _ => !s.inBootloader && bytes.length == 8
  | .getReport => !s.inBootloader
  | .tick => !s.inBootloader
  | .txByteComplete => !s.inBootloader && s.tx.en
  | .restart => !s.inBootloader && s.rstArmed

/-- The events to come are a run (70_reset_and_hazards.md R270): they start with RESET, and each is enabled
in the state the ones before it leave. -/
def IsRun (s : State) : Prop :=
  s.inputs.head? = some .reset ∧
  ∀ (k : Nat) (u : State) (e : Event) (rest : List Event),
    Host.Core.run core k s = .next u → u.inputs = e :: rest → Enabled u e = true

/-- The events of the cooperative context and the handler that neither start nor abandon a frame. -/
def KeepsFrame : Event → Bool
  | .reset => false
  | .setReport _ _ => true
  | .getReport => true
  | .tick => false
  | .txByteComplete => true
  | .restart => false

/-- A fade command with this raw destination covers LED `n` (30_encoding.md R99, 40_begin_fade.md R128). -/
def Selects (ledCount : Nat) (raw : Byte) (n : Nat) : Bool :=
  raw.toNat == 0 || decide (ledCount < raw.toNat) || raw.toNat == n

/-- The events after which a fade in progress on LED `n` goes on: all but RESET, RESTART, a fade command that
covers the LED and a transfer that is no report (41_fade_tick.md R151, "no other command for the same
LED"). -/
def LeavesFade (c : Config) (ledCount n : Nat) : Event → Bool
  | .reset => false
  | .setReport bytes _ =>
    match decode c bytes with
    | .ok (.fade p) => !Selects ledCount p.dest n
    | .ok (.fadeAlias p) => !Selects ledCount p.dest n
    | .ok _ => true
    | .error _ => false
  | .getReport => true
  | .tick => true
  | .txByteComplete => true
  | .restart => false

/-- RESET and RESTART, the events that put the block in its reset state. -/
def IsReset : Event → Bool
  | .reset => true
  | .setReport _ _ => false
  | .getReport => false
  | .tick => false
  | .txByteComplete => false
  | .restart => true

end Sys2Proof.Machine
end

