-- ==== Sys2Proof/Certificates/Slice0/Obligations.lean ====
section
/-! DEFINITION. The statements for the provers. A statement about every state is one about every choice of
the parameters too: they are fields of State (notes/assumptions/1.md, 2.md). 10_state.md R38 makes
`FAULT_OVERRUN = 0` a premise of every claim: a statement that does not have it holds with it all the more,
and the few that speak of a TICK during a frame say so (notes/assumptions/5.md). -/

open Sys2Proof Sys2Proof.Machine

/-! ### Encodings -/

/-- Decode and encode agree: every well-formed command, with every operand value, is what its own encoding
decodes to, for every legal choice of the command codes. 30_encoding.md, sections 1, 4, 5 and 6. -/
def Obligations.DecodeOfEncodedCommandIsTheCommand : Prop :=
  ∀ (c : Config) (i : Instr), c.valid = true → WellFormed c i = true →
    decode c (reportBytes (encode c i)) = .ok i

/-- The decoder is total on 8 bytes and drops no bit: every report decodes to a well-formed command whose
encoding is that report. 30_encoding.md R107 (derived there) and sections 1, 5, 6. -/
def Obligations.EveryReportIsTheEncodingOfItsDecoding : Prop :=
  ∀ (c : Config) (r : Report), ∃ i, decode c (reportBytes r) = .ok i ∧ WellFormed c i = true ∧
    encode c i = r

/-- A transfer is refused exactly when it is not 8 bytes long. 20_memory.md, section 3 (alignment);
93_implementation_defined.md U16. -/
def Obligations.OnlyEightByteTransfersAreReports : Prop :=
  ∀ (c : Config) (bytes : List Byte), decode c bytes = .error .notEightBytes ↔ bytes.length ≠ 8

/-- Words written out from 95_test_vectors.md section 2.1 (E1, E2, E4, E5, E6, E7, E9, E11, E12) decode to
the commands they stand for, with the stand-in codes (DESIGN CHOICE, notes/assumptions/1.md). -/
def Obligations.WordsOfTheSpecDecode : Prop :=
  decodeTableWord 64 0x01630A141E006405 = some (.fade ⟨10, 20, 30, 100, 5⟩) ∧
  decodeTableWord 64 0x0163FF0080123400 = some (.fade ⟨255, 0, 128, 4660, 0⟩) ∧
  decodeTableWord 64 0x016E070809000008 = some (.fadeAlias ⟨7, 8, 9, 0, 8⟩) ∧
  decodeTableWord 64 0x01720000000000C8 = some (.readLed ⟨0, 0, 0, 0, 200⟩) ∧
  decodeTableWord 64 0x0176000000000000 = some (.version ⟨0, 0, 0, 0, 0⟩) ∧
  decodeTableWord 64 0x0178112233445566 = some (.nop 0x78 ⟨0x11, 0x22, 0x33, 0x4455, 0x66⟩) ∧
  decodeTableWord 64 0x0272000000000005 = some (.discard 0x02 0x72 ⟨0, 0, 0, 0, 5⟩) ∧
  decodeTableWord 64 0x0147000000000000 = some (.armReset ⟨0, 0, 0, 0, 0⟩) ∧
  decodeTableWord 64 0x01430A141E006405 = some (.nop 0x43 ⟨10, 20, 30, 100, 5⟩)

/-- The duration operand of a report is `p[5] * 256 + p[6]`, and the destination operand is the raw index,
or 0 when that is above `LED_COUNT`; it is never above `LED_COUNT`, and with `LED_COUNT = 255` no raw value
is out of range. 30_encoding.md, section 4. -/
def Obligations.DurationAndDestinationOperands : Prop :=
  (∀ r : Report, (payloadOf r).dur.toNat = r.b5.toNat * 256 + r.b6.toNat) ∧
  ∀ (ledCount : Nat) (raw : Byte),
    (normalise ledCount raw).toNat = (if raw.toNat > ledCount then 0 else raw.toNat) ∧
    (normalise ledCount raw).toNat ≤ ledCount ∧ (ledCount = 255 → normalise ledCount raw = raw)

/-! ### The step -/

/-- When the next event is a SET_REPORT whose bytes decode to a well-formed command, the step is exec of
that command; around it the step only takes the event off the queue and notes the event's interleaving
choice (20_memory.md R77), which are the model's own fields. -/
def Obligations.StepRunsTheDecodedCommand : Prop :=
  ∀ (s : State) (bytes : List Byte) (ms : List Micro) (rest : List Event) (i : Instr),
    s.inputs = .setReport bytes ms :: rest → s.inBootloader = false →
    decode s.cfg bytes = .ok i → WellFormed s.cfg i = true →
    step s = exec i { s with inputs := rest, interleave := ms }

/-- With no event delivered the block does nothing. 70_reset_and_hazards.md R251 (derived there). -/
def Obligations.BlockWaitsForAnEvent : Prop :=
  ∀ s : State, s.inputs = [] → step s = .next s

/-- Every command completes, in every state. 60_exceptions.md, section 1: no trap, no error surfaced. -/
def Obligations.EveryCommandCompletes : Prop :=
  ∀ (i : Instr) (s : State), ∃ t, exec i s = .next t

/-- The default echo, on the step: after an accepted report the status report holds the report's own bytes,
except offsets 3 and 4 after VERSION and offsets 2 to 7 after READ_LED. That offset 0 holds the identifier
is the spec's decision D16 (notes/assumptions/4.md). -/
def Obligations.AcceptedReportIsEchoed : Prop :=
  ∀ (s : State) (r : Report) (ms : List Micro) (rest : List Event),
    s.inputs = .setReport (reportBytes r) ms :: rest → s.inBootloader = false → s.cfg.valid = true →
    r.b0 = 0x01 → ∃ t, step s = .next t ∧
      (r.b1 ≠ 0x76 → r.b1 ≠ 0x72 → t.status = r) ∧
      (r.b1 = 0x76 → t.status = { r with b3 := s.cfg.verHi, b4 := s.cfg.verLo }) ∧
      (r.b1 = 0x72 → t.status.b0 = r.b0 ∧ t.status.b1 = r.b1)

/-! ### The commands -/

/-- FADE and FADE_ALIAS with a duration that is not 0: the echo, the staging record, and for each LED the
destination selects the target, the duration, a zero fraction and the increment of each channel computed
from the colour it shows now. Every other LED, every Color Store byte and all other state is unchanged. How
the direction shares the increment, which commands stage and what offset 0 of the status report holds are
the spec's decisions D6, D11 and D16 (notes/assumptions/4.md). -/
def Obligations.FadeWithDurationSetsUpTheRamp : Prop :=
  ∀ (i : Instr) (code : Byte) (p : Payload) (s : State),
    (i = .fade p ∧ code = s.cfg.codeFade ∨ i = .fadeAlias p ∧ code = s.cfg.codeFadeAlias) → p.dur ≠ 0 →
    ∃ t, exec i s = .next t ∧
      { t with leds := s.leds, stg := s.stg, status := s.status } = s ∧
      t.status = ⟨0x01, code, p.red, p.grn, p.blu, p.dur.extractLsb' 8 8, p.dur.extractLsb' 0 8, p.dest⟩ ∧
      t.stg.colour = { g := p.grn, r := p.red, b := p.blu } ∧ t.stg.dur = p.dur ∧
      t.stg.dest.toNat = (if p.dest.toNat > s.ledCount then 0 else p.dest.toNat) ∧
      t.leds.length = s.leds.length ∧ (∀ k, t.csByte k = s.csByte k) ∧
      ∀ (j : Nat) (l : Led), s.leds[j]? = some l →
        if t.stg.dest.toNat = 0 ∨ t.stg.dest.toNat = j + 1 then
          t.leds[j]? = some
            { cs := l.cs
              tgt := { g := p.grn, r := p.red, b := p.blu }
              rem := p.dur
              inc := { g := BitVec.ofNat 16 (expectedIncrement p.grn l.cs.g p.dur)
                       r := BitVec.ofNat 16 (expectedIncrement p.red l.cs.r p.dur)
                       b := BitVec.ofNat 16 (expectedIncrement p.blu l.cs.b p.dur) }
              frac := ⟨0, 0, 0⟩ }
        else t.leds[j]? = some l

/-- FADE and FADE_ALIAS with duration 0, the immediate set, whatever order its byte writes take and wherever
handler steps fall between them: the echo, the staging record, and for each LED the destination selects the
colour at once and no fade, the rest of its FadeTarget unchanged. Every other LED, every Color Store byte
outside the selected LEDs and all other state is unchanged; the transmitter moves only if it is streaming
and handler steps do fall inside. That the rest of the FadeTarget stays, that the writes are single bytes in
any order, which commands stage and what offset 0 of the status report holds are the spec's decisions D10,
D15, D11 and D16 (notes/assumptions/4.md). -/
def Obligations.FadeWithDurationZeroSetsTheColourNow : Prop :=
  ∀ (i : Instr) (code : Byte) (p : Payload) (s : State),
    (i = .fade p ∧ code = s.cfg.codeFade ∨ i = .fadeAlias p ∧ code = s.cfg.codeFadeAlias) → p.dur = 0 →
    ∃ t, exec i s = .next t ∧
      { t with leds := s.leds, stg := s.stg, status := s.status, tx := s.tx, wire := s.wire } = s ∧
      (s.tx.en = false ∨ Micro.handler ∉ s.interleave → t.tx = s.tx ∧ t.wire = s.wire) ∧
      t.status = ⟨0x01, code, p.red, p.grn, p.blu, 0x00, 0x00, p.dest⟩ ∧
      t.stg.colour = { g := p.grn, r := p.red, b := p.blu } ∧ t.stg.dur = 0 ∧
      t.stg.dest.toNat = (if p.dest.toNat > s.ledCount then 0 else p.dest.toNat) ∧
      t.leds.length = s.leds.length ∧
      (∀ k, ¬(t.stg.dest.toNat = 0 ∨ t.stg.dest.toNat = ledOfOffset k) → t.csByte k = s.csByte k) ∧
      ∀ (j : Nat) (l : Led), s.leds[j]? = some l →
        if t.stg.dest.toNat = 0 ∨ t.stg.dest.toNat = j + 1 then
          t.leds[j]? = some { l with cs := { g := p.grn, r := p.red, b := p.blu }, rem := 0 }
        else t.leds[j]? = some l

/-- FADE_ALIAS is literally FADE: the two leave states that differ at most in the echoed code,
`STATUS[1]`. -/
def Obligations.AliasIsFadeButForTheEchoedCode : Prop :=
  ∀ (p : Payload) (s : State), ∃ t u, exec (.fade p) s = .next t ∧ exec (.fadeAlias p) s = .next u ∧
    t.status.b1 = s.cfg.codeFade ∧ u.status.b1 = s.cfg.codeFadeAlias ∧
    u = { t with status := { t.status with b1 := s.cfg.codeFadeAlias } }

/-- While an immediate set is being executed each Color Store byte holds its old value or, if the command
covers it, its new value, never anything else; and once a byte holds its new value it keeps it. Decision D15
of the spec (notes/assumptions/4.md). -/
def Obligations.BytesDuringAnImmediateSetAreOldOrNew : Prop :=
  ∀ (n : Nat) (target : Colour) (s : State) (done todo : List Micro) (k : Nat), k < 3 * s.ledCount →
    ((microRun n target s done).csByte k = s.csByte k ∨
      (n = 0 ∨ n = ledOfOffset k) ∧
        (microRun n target s done).csByte k = target.get (channelOfOffset k)) ∧
    ((n = 0 ∨ n = ledOfOffset k) →
      (microRun n target s done).csByte k = target.get (channelOfOffset k) →
      (microRun n target s (done ++ todo)).csByte k = target.get (channelOfOffset k))

/-- ARM_RESET (43_commands.md R198): the echo and `RST_ARMED`; nothing else changes, and repeating the
command has no further effect. The block then goes on as before: until a RESET or RESTART every event does
to an armed block what it does to one that is not, and leaves it armed. Offset 0 of the echo is the spec's
decision D16 (notes/assumptions/4.md). -/
def Obligations.ArmResetArmsTheRestart : Prop :=
  ∀ (p : Payload) (s : State),
    exec (.armReset p) s = .next { s with
      status := ⟨0x01, s.cfg.codeArmReset, p.red, p.grn, p.blu, p.dur.extractLsb' 8 8,
        p.dur.extractLsb' 0 8, p.dest⟩
      rstArmed := true } ∧
    (∀ t, exec (.armReset p) s = .next t → exec (.armReset p) t = .next t) ∧
    ∀ t e rest, s.inputs = e :: rest → IsReset e = false → step s = .next t →
      step { s with rstArmed := true } = .next { t with rstArmed := true }

/-- VERSION: the echo with the version characters at offsets 3 and 4; nothing else changes. Offset 0 of the
echo is the spec's decision D16 (notes/assumptions/4.md). -/
def Obligations.VersionReportsTheVersionCharacters : Prop :=
  ∀ (p : Payload) (s : State),
    exec (.version p) s = .next { s with
      status := ⟨0x01, 0x76, p.red, s.cfg.verHi, s.cfg.verLo, p.dur.extractLsb' 8 8,
        p.dur.extractLsb' 0 8, p.dest⟩ }

/-- READ_LED of an LED `n` in 1 to `LED_COUNT`: its live colour in report order, zero duration and the
index; nothing else changes. Offset 0 of the echo is the spec's decision D16 (notes/assumptions/4.md). -/
def Obligations.ReadLedReportsTheLiveColour : Prop :=
  ∀ (p : Payload) (s : State) (l : Led), 1 ≤ p.dest.toNat → p.dest.toNat ≤ s.ledCount →
    s.leds[p.dest.toNat - 1]? = some l →
    exec (.readLed p) s = .next { s with
      status := ⟨0x01, 0x72, l.cs.r, l.cs.g, l.cs.b, 0x00, 0x00, p.dest⟩ }

/-- READ_LED whose resolved index is 0 (raw 0, or above `LED_COUNT`) answers with the staging colour, zero
duration and index 0; nothing else changes. That the colour is the staging one, and what offset 0 holds, are
the spec's decisions D11 and D16 (notes/assumptions/4.md). -/
def Obligations.ReadLedOfIndexZeroReportsTheStagingColour : Prop :=
  ∀ (p : Payload) (s : State), p.dest.toNat = 0 ∨ p.dest.toNat > s.ledCount →
    exec (.readLed p) s = .next { s with
      status := ⟨0x01, 0x72, s.stg.colour.r, s.stg.colour.g, s.stg.colour.b, 0x00, 0x00, 0x00⟩ }

/-- An unrecognised command is echoed and changes nothing else. Offset 0 of the echo is the spec's decision
D16 (notes/assumptions/4.md). -/
def Obligations.UnrecognisedCommandIsOnlyEchoed : Prop :=
  ∀ (code : Byte) (p : Payload) (s : State), WellFormed s.cfg (.nop code p) = true →
    exec (.nop code p) s = .next { s with
      status := ⟨0x01, code, p.red, p.grn, p.blu, p.dur.extractLsb' 8 8, p.dur.extractLsb' 0 8,
        p.dest⟩ }

/-- A report with a wrong identifier is discarded, whatever its other bytes: no state element changes (the
event and its interleaving choice, which the step takes, are the model's own fields), and no error is
raised. -/
def Obligations.WrongIdentifierIsDiscarded : Prop :=
  (∀ (rid code : Byte) (p : Payload) (s : State), exec (.discard rid code p) s = .next s) ∧
  ∀ (s : State) (r : Report) (ms : List Micro) (rest : List Event),
    s.inputs = .setReport (reportBytes r) ms :: rest → s.inBootloader = false → r.b0 ≠ 0x01 →
    step s = .next { s with inputs := rest, interleave := ms }

/-- What no command does, whatever its interleaving: write `FAULT_OVERRUN`, clear `RST_ARMED` or change the
parameters; only ARM_RESET sets `RST_ARMED`, and only FADE and FADE_ALIAS write the LEDs or the staging
record. With no handler step inside, or the signal masked, no command writes the transmitter's registers or
`WIRE`. 43_commands.md R203 (derived there); which commands stage is the spec's decision D11
(notes/assumptions/4.md). -/
def Obligations.WhatNoCommandDoes : Prop :=
  ∀ (i : Instr) (s t : State), exec i s = .next t →
    (Micro.handler ∉ s.interleave ∨ s.tx.en = false → t.tx = s.tx ∧ t.wire = s.wire) ∧
    t.faultOverrun = s.faultOverrun ∧ t.cfg = s.cfg ∧ t.replies = s.replies ∧
    (s.rstArmed = true → t.rstArmed = true) ∧
    ((∀ p, i ≠ .armReset p) → t.rstArmed = s.rstArmed) ∧
    ((∀ p, i ≠ .fade p) → (∀ p, i ≠ .fadeAlias p) → t.leds = s.leds ∧ t.stg = s.stg)

/-! ### The fade accumulator -/

/-- The increment BEGIN_FADE stores for a duration that is not 0: as a number it is the floor of
`256 * |target - current| / duration` with bit 0 replaced by the direction, which is 1 exactly when the
target is above the current value; it fits 16 bits. That the quotient stays in place is the spec's decision
D6 (notes/assumptions/4.md). -/
def Obligations.IncrementIsTheQuotientWithTheDirectionBit : Prop :=
  ∀ (target cur : Byte) (dur : Half), dur ≠ 0 →
    (increment target cur dur).toNat = expectedIncrement target cur dur ∧
    (direction (increment target cur dur) = true ↔ target.toNat > cur.toNat) ∧
    (magnitude (increment target cur dur)).toNat = expectedRate target cur dur

/-- A tick of an IDLE LED changes nothing, whatever its FadeTarget holds. -/
def Obligations.IdleLedIsUntouchedByATick : Prop :=
  ∀ l : Led, l.rem = 0 → fadeStep l = l

/-- A tick of a RAMPING LED decrements the counter; the tick that brings it to 0 sets the colour to the
stored target instead of a ramp step, and leaves the increments, fractions and target (which the final tick
leaves by the spec's decision D9, notes/assumptions/4.md). -/
def Obligations.FinalTickSnapsToTheTarget : Prop :=
  ∀ l : Led, l.rem ≠ 0 → (fadeStep l).rem.toNat = l.rem.toNat - 1 ∧
    (l.rem.toNat = 1 → fadeStep l = { l with rem := 0, cs := l.tgt })

/-- A tick that is not the final one, on each channel: the 16-bit sum of the fraction and the increment
without its direction bit; its low byte is the new fraction and its high byte the step, added or subtracted
modulo 256 by the direction bit. The increments and the target stay. That the direction bit is not added
(D7) and that the arithmetic wraps (D8) are the spec's decisions (notes/assumptions/4.md). -/
def Obligations.NonFinalTickTakesOneRampStep : Prop :=
  ∀ (l : Led) (c : Channel), 2 ≤ l.rem.toNat →
    (fadeStep l).inc = l.inc ∧ (fadeStep l).tgt = l.tgt ∧ (fadeStep l).rem.toNat = l.rem.toNat - 1 ∧
    ((fadeStep l).frac.get c).toNat =
      ((l.frac.get c).toNat + (l.inc.get c).toNat / 2 * 2) % 65536 % 256 ∧
    ((fadeStep l).cs.get c).toNat =
      (if (l.inc.get c).toNat % 2 = 1 then
        (l.cs.get c).toNat + ((l.frac.get c).toNat + (l.inc.get c).toNat / 2 * 2) % 65536 / 256
      else
        (l.cs.get c).toNat + 256 - ((l.frac.get c).toNat + (l.inc.get c).toNat / 2 * 2) % 65536 / 256)
      % 256

/-- The source's testable properties of the fade path (41_fade_tick.md R151), for every start, target and
duration `D ≥ 1` with no other command in between. Convergence: after `D` ticks the colour is the target and
the LED is IDLE. Monotonicity: before that each tick moves a channel, if at all, in the direction
established at the start and never past the target. No-op stability: a channel that starts at its target has
increment 0 and never moves, though the counter still counts down. (The closed form of the values in
between, which rests on the spec's decisions D6 and D7, is FadeInProgressHasItsClosedForm.) -/
def Obligations.FadesConvergeMonotonicallyAndStayPut : Prop :=
  ∀ (l : Led) (target : Colour) (dur : Half), dur ≠ 0 →
    (fadeStep^[dur.toNat] (rampSetup target dur l)).cs = target ∧
    (fadeStep^[dur.toNat] (rampSetup target dur l)).rem = 0 ∧
    (∀ (c : Channel) (k : Nat), k < dur.toNat →
      let now := ((fadeStep^[k] (rampSetup target dur l)).cs.get c).toNat
      let next := ((fadeStep^[k + 1] (rampSetup target dur l)).cs.get c).toNat
      ((l.cs.get c).toNat ≤ (target.get c).toNat → now ≤ next ∧ next ≤ (target.get c).toNat) ∧
      ((target.get c).toNat ≤ (l.cs.get c).toNat → next ≤ now ∧ (target.get c).toNat ≤ next)) ∧
    (∀ (c : Channel) (k : Nat), l.cs.get c = target.get c → k ≤ dur.toNat →
      (rampSetup target dur l).inc.get c = 0 ∧
      (fadeStep^[k] (rampSetup target dur l)).cs.get c = target.get c ∧
      (fadeStep^[k] (rampSetup target dur l)).rem.toNat = dur.toNat - k)

/-- A fade the host asks for arrives, on whole runs: after a FADE or FADE_ALIAS report with a duration `D`
that is not 0, whatever completions, status reads and other commands come between (no RESET or RESTART, and
for the LED in question no further fade command), the `D`-th TICK leaves an LED the destination selects at
the report's colour and IDLE, and any other LED where its own fade has brought it. `DrainBeforeTick` and
`FAULT_OVERRUN = 0` are premises (10_state.md R38, 70_reset_and_hazards.md R260): no TICK of such a run
overruns, so nothing rests on the continuation of notes/assumptions/5.md. 40_begin_fade.md R128,
41_fade_tick.md R151. -/
def Obligations.CommandedFadeArrivesAfterItsTicks : Prop :=
  ∀ (s t : State) (r : Report) (ms : List Micro) (es rest : List Event) (j : Nat) (l : Led),
    s.Inv → s.faultOverrun = false → s.inputs = .setReport (reportBytes r) ms :: (es ++ rest) →
    r.b0 = 0x01 → r.b1 = s.cfg.codeFade ∨ r.b1 = s.cfg.codeFadeAlias → (r.b5 ≠ 0 ∨ r.b6 ≠ 0) →
    s.leds[j]? = some l → (∀ e ∈ es, LeavesFade s.cfg s.ledCount (j + 1) e = true) →
    es.count .tick = r.b5.toNat * 256 + r.b6.toNat →
    DrainBeforeTick s.cfg s.ledCount (completionsOwed s) (.setReport (reportBytes r) ms :: es) = true →
    Host.Core.run core (es.length + 1) s = .next t →
    t.faultOverrun = false ∧
    if r.b7.toNat = 0 ∨ r.b7.toNat > s.ledCount ∨ r.b7.toNat = j + 1 then
      (t.leds[j]?.map (·.cs)) = some { g := r.b3, r := r.b2, b := r.b4 } ∧
        (t.leds[j]?.map (·.rem)) = some 0
    else t.leds[j]? = some (fadeStep^[r.b5.toNat * 256 + r.b6.toNat] l)

/-- The closed form of a fade in progress: after `k` of `D` ticks, `k < D`, a channel that began at `c0`
with rate `M` has fraction `k * M mod 256` and value `c0 ± floor (k * M / 256)`, and the counter is
`D - k`. 41_fade_tick.md R148 (derived there, from the spec's decisions D6 and D7,
notes/assumptions/4.md). -/
def Obligations.FadeInProgressHasItsClosedForm : Prop :=
  ∀ (l : Led) (target : Colour) (dur : Half) (c : Channel) (k : Nat), k < dur.toNat →
    let m := expectedRate (target.get c) (l.cs.get c) dur
    let now := fadeStep^[k] (rampSetup target dur l)
    now.rem.toNat = dur.toNat - k ∧ (now.frac.get c).toNat = k * m % 256 ∧
    (now.cs.get c).toNat =
      if (l.cs.get c).toNat < (target.get c).toNat then (l.cs.get c).toNat + k * m / 256
      else (l.cs.get c).toNat - k * m / 256

/-- A tick of an LED that is on course keeps it on course, and moves each channel towards its target or not
at all, never past it, with no wrap of the 8-bit value. 41_fade_tick.md R149 (derived there, from the
spec's decisions D6 and D7, notes/assumptions/4.md). -/
def Obligations.TickMovesOnlyTowardsTheTarget : Prop :=
  ∀ l : Led, LedOnCourse l → LedOnCourse (fadeStep l) ∧
    (l.rem ≠ 0 → ∀ c : Channel,
      (direction (l.inc.get c) = true → (l.cs.get c).toNat ≤ ((fadeStep l).cs.get c).toNat ∧
        ((fadeStep l).cs.get c).toNat ≤ (l.tgt.get c).toNat) ∧
      (direction (l.inc.get c) = false → (l.tgt.get c).toNat ≤ ((fadeStep l).cs.get c).toNat ∧
        ((fadeStep l).cs.get c).toNat ≤ (l.cs.get c).toNat))

/-- The same command twice with no tick between is the command once: a second FADE or FADE_ALIAS changes
nothing, of any duration, but what handler steps placed inside an immediate set move in the transmitter and
on the wire. A new fade with a duration starts from the colours the LEDs show and forgets the old ones: two
states that show the same colours leave the selected LEDs alike. 20_memory.md R71, 40_begin_fade.md R130,
R131 e. -/
def Obligations.ANewFadeForgetsTheOldOne : Prop :=
  ∀ (i : Instr) (p : Payload) (s t : State), i = .fade p ∨ i = .fadeAlias p → exec i s = .next t →
    (∃ u, exec i t = .next u ∧ { u with tx := t.tx, wire := t.wire } = t ∧
      (p.dur ≠ 0 ∨ Micro.handler ∉ s.interleave ∨ s.tx.en = false → u = t)) ∧
    ∀ s' t' : State, p.dur ≠ 0 → s.leds.map (·.cs) = s'.leds.map (·.cs) → exec i s' = .next t' →
      ∀ j, Selects s.ledCount p.dest (j + 1) = true → t.leds[j]? = t'.leds[j]?

/-- TICK while the transmitter is idle: every LED takes its tick, the transmitter is armed at the start of
a frame, nothing is emitted, and nothing else changes: not `STG`, `STATUS`, `RST_ARMED` or
`FAULT_OVERRUN`. No LED's increments or target change. That the pass comes before the start is the spec's
decision D12 (notes/assumptions/4.md). -/
def Obligations.TickAdvancesEveryLedAndArmsTheTransmitter : Prop :=
  ∀ (s : State) (rest : List Event), s.inputs = .tick :: rest → s.inBootloader = false →
    s.tx.en = false → ∃ t, step s = .next t ∧
      t = { s with
        inputs := rest
        leds := s.leds.map fadeStep
        tx := { en := true, src := 0, cur := s.tx.cur, bits := 0 } } ∧
      t.leds.map (fun l => (l.inc, l.tgt)) = s.leds.map (fun l => (l.inc, l.tgt))

/-- TICK while a frame is streaming marks the state with `FAULT_OVERRUN`, the model-level fault
`TickOverrun`. What else such a TICK leaves is the spec's continuation, on which nothing here rests
(decision D14, notes/assumptions/5.md). -/
def Obligations.TickWhileStreamingIsTheOverrunFault : Prop :=
  ∀ (s : State) (rest : List Event), s.inputs = .tick :: rest → s.inBootloader = false →
    s.tx.en = true → ∃ t, step s = .next t ∧ t.faultOverrun = true ∧ faultOf t = some .tickOverrun

/-! ### The transmitter -/

/-- The completion handler, case by case. Masked: no effect. At the end of the frame: `TX_EN` cleared and
nothing emitted. Within a byte: the pattern of bit 7 of `TX_CUR` emitted, `TX_CUR` shifted, `TX_BITS`
counted down. Between bytes: the next source byte is loaded and its bit 7 emitted at once. Nothing else
changes. The register shapes are the spec's decision D13 (notes/assumptions/4.md). Only an entry of an
interleaving meets the masked case; as an event a masked completion has no step (notes/assumptions/10.md).
-/
def Obligations.CompletionHandlerCases : Prop :=
  ∀ s : State,
    (s.tx.en = false → txByteComplete s = s) ∧
    (s.tx.en = true → s.tx.bits = 0 → s.tx.src.toNat = 3 * s.ledCount →
      txByteComplete s = { s with tx := { s.tx with en := false } }) ∧
    (s.tx.en = true → s.tx.bits ≠ 0 →
      txByteComplete s = { s with
        tx := { s.tx with cur := s.tx.cur <<< 1, bits := s.tx.bits - 1 }
        wire := s.wire ++ [if s.tx.cur.getLsbD 7 then s.cfg.pat1 else s.cfg.pat0] }) ∧
    (s.tx.en = true → s.tx.bits = 0 → s.tx.src.toNat < 3 * s.ledCount →
      txByteComplete s = { s with
        tx := { en := true, src := s.tx.src + 1, cur := s.csByte s.tx.src.toNat <<< 1, bits := 7 }
        wire := s.wire ++ [if (s.csByte s.tx.src.toNat).getLsbD 7 then s.cfg.pat1 else s.cfg.pat0] })

/-- On the step: a TX_BYTE_COMPLETE event runs the handler once while `TX_EN = 1`; while `TX_EN = 0` it has
no step, which the model says by refusing it (notes/assumptions/10.md). 42_transmitter.md R166,
70_reset_and_hazards.md R271. -/
def Obligations.CompletionEventRunsTheHandler : Prop :=
  ∀ (s : State) (rest : List Event), s.inputs = .txByteComplete :: rest → s.inBootloader = false →
    (s.tx.en = true → step s = .next (txByteComplete { s with inputs := rest })) ∧
    (s.tx.en = false → step s = .refused .completionMasked)

/-- One colour byte is sent as eight pattern bytes, most significant bit first, by the eight completions
of which the first loads it. When a byte is loaded is the spec's decision D13 (notes/assumptions/4.md). -/
def Obligations.EightCompletionsSendOneByteMsbFirst : Prop :=
  ∀ s : State, s.tx.en = true → s.tx.bits = 0 → s.tx.src.toNat < 3 * s.ledCount →
    (txByteComplete^[8] s).wire = s.wire ++ patternsOf s.cfg (s.csByte s.tx.src.toNat) ∧
    (txByteComplete^[8] s).tx.bits = 0 ∧ (txByteComplete^[8] s).tx.src = s.tx.src + 1 ∧
    (txByteComplete^[8] s).tx.en = true

/-- An undisturbed frame is the Color Store: a TICK and the `24 * LED_COUNT + 1` completions after it append
exactly `FRAME(CS)` of the colours that TICK left, `24 * LED_COUNT` bytes, and leave the transmitter idle
and everything else as the TICK left it. 42_transmitter.md R170, R171 (derived there); that the last
completion only ends the frame is the spec's decision D13 (notes/assumptions/4.md). -/
def Obligations.UndisturbedFrameIsTheColourStore : Prop :=
  ∀ (s : State) (rest : List Event),
    s.inputs = .tick :: (List.replicate (24 * s.ledCount + 1) .txByteComplete ++ rest) →
    s.inBootloader = false → s.tx.en = false → s.ledCount ≤ 255 →
    ∃ t, Host.Core.run core (24 * s.ledCount + 2) s = .next t ∧
      t.leds = s.leds.map fadeStep ∧ t.wire = s.wire ++ frameOf t ∧
      t.wire.length = s.wire.length + 24 * s.ledCount ∧ t.tx.en = false ∧
      { t with leds := s.leds, tx := s.tx, wire := s.wire } = { s with inputs := rest }

/-- Frame integrity: whatever commands, handler steps and status reads arrive, the bytes on the wire and
the bytes the frame in progress still owes keep the same total, so a frame is always `24 * LED_COUNT`
bytes. 42_transmitter.md R172; the registers the total is counted with are the spec's decision D13
(notes/assumptions/4.md). -/
def Obligations.FrameLengthSurvivesEveryCommand : Prop :=
  ∀ (s t : State) (e : Event) (rest : List Event), s.Inv → s.inputs = e :: rest → step s = .next t →
    (KeepsFrame e = true → t.wire.length + bytesOwed t = s.wire.length + bytesOwed s) ∧
    (e = .tick → s.tx.en = false → t.wire = s.wire ∧ bytesOwed t = 24 * s.ledCount)

/-- Every byte a step puts on the wire is one of the two sanctioned pattern bytes, and no step but RESET and
RESTART takes a byte back. Of a TICK during a frame it says what the spec's continuation does
(notes/assumptions/5.md). -/
def Obligations.OnlyPatternBytesReachTheWire : Prop :=
  ∀ (s t : State) (e : Event) (rest : List Event), s.inputs = e :: rest → IsReset e = false →
    step s = .next t → ∃ sent, t.wire = s.wire ++ sent ∧ ∀ x ∈ sent, x = s.cfg.pat1 ∨ x = s.cfg.pat0

/-- A frame ends: from any good state the completions that are owed leave the transmitter idle, and fewer do
not. 42_transmitter.md R169, R170; that the end takes a completion of its own is the spec's decision D13
(notes/assumptions/4.md). -/
def Obligations.OwedCompletionsEndTheFrame : Prop :=
  ∀ s : State, s.Inv → (txByteComplete^[completionsOwed s] s).tx.en = false ∧
    ∀ k, k < completionsOwed s → (txByteComplete^[k] s).tx.en = true

/-! ### Events -/

/-- GET_REPORT hands the host the 8 status bytes and changes nothing of the block. -/
def Obligations.GetReportReturnsTheStatusAndChangesNothing : Prop :=
  ∀ (s : State) (rest : List Event), s.inputs = .getReport :: rest → s.inBootloader = false →
    step s = .next { s with inputs := rest, replies := s.replies ++ [s.status] }

/-- The status report persists: only a SET_REPORT, RESET or RESTART changes it. Of a TICK during a frame it
says what the spec's continuation does (notes/assumptions/5.md). -/
def Obligations.StatusPersistsUntilTheNextSet : Prop :=
  ∀ (s t : State) (e : Event) (rest : List Event), s.inputs = e :: rest → step s = .next t →
    IsReset e = false → (∀ bytes ms, e ≠ .setReport bytes ms) → t.status = s.status

/-- RESET, in every state: every LED dark and IDLE, every register zero, `WIRE` empty. The values are the
spec's decision D17 (10_state.md R44, "The spec decides"; notes/assumptions/3.md). -/
def Obligations.ResetLeavesEveryElementZero : Prop :=
  ∀ (s : State) (rest : List Event), s.inputs = .reset :: rest → ∃ t, step s = .next t ∧
    t.cfg = s.cfg ∧ t.ledCount = s.ledCount ∧ t.inputs = rest ∧ t.replies = s.replies ∧
    (∀ l ∈ t.leds, l.cs = ⟨0, 0, 0⟩ ∧ l.tgt = ⟨0, 0, 0⟩ ∧ l.rem = 0 ∧ l.inc = ⟨0, 0, 0⟩ ∧
      l.frac = ⟨0, 0, 0⟩) ∧
    t.stg = ⟨⟨0, 0, 0⟩, 0, 0⟩ ∧ t.status = ⟨0, 0, 0, 0, 0, 0, 0, 0⟩ ∧ t.rstArmed = false ∧
    t.tx = ⟨false, 0, 0, 0⟩ ∧ t.faultOverrun = false ∧ t.wire = [] ∧ t.inBootloader = false

/-- RESTART happens exactly while `RST_ARMED = 1`, has the effect of RESET on the block, and ends the run:
afterwards every event but RESET is refused. Decision D18 (notes/assumptions/7.md). -/
def Obligations.RestartNeedsArmingAndEndsTheRun : Prop :=
  ∀ (s : State) (rest : List Event), s.inputs = .restart :: rest → s.inBootloader = false →
    (s.rstArmed = false → step s = .refused .restartNotArmed) ∧
    (s.rstArmed = true → step s = .next
      { resetBlock { s with inputs := rest } with inBootloader := true }) ∧
    ∀ t e more, step s = .next t → rest = e :: more →
      step t = if e = .reset then .next (resetBlock { t with inputs := more }) else .refused .runEnded

/-- `RST_ARMED` and `FAULT_OVERRUN` are sticky: no step but RESET or RESTART clears either; and only an
ARM_RESET command sets the first, only a TICK during a frame the second. Of a TICK during a frame it says
what the spec's continuation does (notes/assumptions/5.md). -/
def Obligations.StickyBitsAreClearedOnlyByReset : Prop :=
  ∀ (s t : State) (e : Event) (rest : List Event), s.inputs = e :: rest → IsReset e = false →
    step s = .next t →
    (s.rstArmed = true → t.rstArmed = true) ∧ (s.faultOverrun = true → t.faultOverrun = true) ∧
    (t.rstArmed = true → s.rstArmed = false →
      ∃ bytes ms p, e = .setReport bytes ms ∧ decode s.cfg bytes = .ok (.armReset p)) ∧
    (t.faultOverrun = true → s.faultOverrun = false → e = .tick ∧ s.tx.en = true)

/-! ### The whole machine -/

/-- The reset state meets the invariant, for every legal choice of the parameters. It rests on the reset
values of decision D17 (notes/assumptions/3.md). -/
def Obligations.ResetStateMeetsTheInvariant : Prop :=
  State.reset.Inv ∧ ∀ (c : Config) (ledCount : Nat), c.valid = true → 1 ≤ ledCount → ledCount ≤ 255 →
    (State.resetWith c ledCount).Inv

/-- Every step, of whatever event, keeps the invariant: legal parameters, the transmitter's cursor in range,
the staged destination normalised, every RAMPING LED on course to its target without overshoot or wrap.
10_state.md R43 and 41_fade_tick.md R149 (both derived there, over the spec's decisions D6, D7 and D13,
notes/assumptions/4.md). Of a TICK during a frame it says what the spec's continuation does
(notes/assumptions/5.md). -/
def Obligations.EveryStepKeepsTheInvariant : Prop :=
  ∀ s t : State, s.Inv → step s = .next t → t.Inv

/-- No step changes the parameters or `LED_COUNT`. Of a TICK during a frame it says what the spec's
continuation does (notes/assumptions/5.md). -/
def Obligations.NoStepChangesTheParameters : Prop :=
  ∀ s t : State, step s = .next t → t.cfg = s.cfg ∧ t.ledCount = s.ledCount

/-- Under the premise `DrainBeforeTick` on the events to come, `TickOverrun` never arises: however the
events interleave, after any number of steps the state is not faulted. 70_reset_and_hazards.md, section 2. -/
def Obligations.NoOverrunUnderDrainBeforeTick : Prop :=
  ∀ (k : Nat) (s t : State), s.Inv → s.faultOverrun = false →
    DrainBeforeTick s.cfg s.ledCount (completionsOwed s) s.inputs = true →
    Host.Core.run core k s = .next t → faultOf t = none

/-- The fade state is invisible until a TICK: two states that differ only in targets, counters, increments
and fractions answer every event but TICK alike, and still differ in nothing else. 10_state.md, section 2
and 70_reset_and_hazards.md, section 4. -/
def Obligations.FadeStateIsInvisibleUntilATick : Prop :=
  ∀ (s₁ s₂ : State) (e : Event) (rest : List Event), s₁.inputs = e :: rest → e ≠ .tick →
    { s₁ with leds := s₂.leds } = s₂ → s₁.leds.map (·.cs) = s₂.leds.map (·.cs) →
    (∃ r, step s₁ = .refused r ∧ step s₂ = .refused r) ∨
    ∃ t₁ t₂, step s₁ = .next t₁ ∧ step s₂ = .next t₂ ∧ { t₁ with leds := t₂.leds } = t₂ ∧
      t₁.leds.map (·.cs) = t₂.leds.map (·.cs)

/-! ### Which events can occur -/

/-- `DrainBeforeTick` says neither more nor less than that every TICK finds `TX_EN = 0`, handler steps
inside commands counted: of events that are all taken it holds exactly if no TICK comes during a frame.
20_memory.md R78, 70_reset_and_hazards.md R260. The premise and the registers are the spec's decisions D19
and D13 (notes/assumptions/4.md, 12.md). -/
def Obligations.DrainBeforeTickMeansEveryTickFindsTheTransmitterIdle : Prop :=
  ∀ s t : State, s.Inv → Host.Core.run core s.inputs.length s = .next t →
    (DrainBeforeTick s.cfg s.ledCount (completionsOwed s) s.inputs = true ↔
      ∀ (k : Nat) (u : State) (rest : List Event),
        Host.Core.run core k s = .next u → u.inputs = .tick :: rest → u.tx.en = false)

/-- Which events have a step: a step answers a next state exactly when its event is enabled, and no step
faults. An event that is not enabled is refused by name: a report that is not 8 bytes, a completion while
`TX_EN = 0`, a RESTART while `RST_ARMED = 0`, anything but RESET once a RESTART has ended the run. That a
missing step is a refusal is the model's way of saying it (notes/assumptions/7.md, 10.md, 11.md; decisions
D18 and D29). 70_reset_and_hazards.md R270, R271. -/
def Obligations.ExactlyTheEnabledEventsAreTaken : Prop :=
  ∀ (s : State) (e : Event) (rest : List Event), s.inputs = e :: rest →
    ((∃ t, step s = .next t) ↔ Enabled s e = true) ∧ (∀ f, step s ≠ .fault f) ∧
    (s.inBootloader = true → e ≠ .reset → step s = .refused .runEnded) ∧
    (s.inBootloader = false →
      (∀ bytes ms, e = .setReport bytes ms → bytes.length ≠ 8 →
        step s = .refused .reportNotEightBytes) ∧
      (e = .txByteComplete → s.tx.en = false → step s = .refused .completionMasked) ∧
      (e = .restart → s.rstArmed = false → step s = .refused .restartNotArmed))

/-- The runs of the spec are the event sequences the model executes: events that start with RESET are a run,
each enabled where it comes, exactly if every one of them is taken. The definition of a run is the spec's
decision D29. 70_reset_and_hazards.md R270. -/
def Obligations.RunsAreTheSequencesTheModelExecutes : Prop :=
  ∀ s : State, s.inputs.head? = some .reset →
    (IsRun s ↔ ∃ t, Host.Core.run core s.inputs.length s = .next t)
end

