-- ==== Sys2Proof/Laws/State.lean ====
section
/-! SUPPORT. What each named update of State does to each field. -/

namespace Sys2Proof.Machine

variable (s : State)

@[simp] theorem State.withLeds_cfg (x : List Led) : (s.withLeds x).cfg = s.cfg := rfl
@[simp] theorem State.withLeds_leds (x : List Led) : (s.withLeds x).leds = x := rfl
@[simp] theorem State.withLeds_stg (x : List Led) : (s.withLeds x).stg = s.stg := rfl
@[simp] theorem State.withLeds_status (x : List Led) : (s.withLeds x).status = s.status := rfl
@[simp] theorem State.withLeds_rstArmed (x : List Led) : (s.withLeds x).rstArmed = s.rstArmed := rfl
@[simp] theorem State.withLeds_tx (x : List Led) : (s.withLeds x).tx = s.tx := rfl
@[simp] theorem State.withLeds_faultOverrun (x : List Led) : (s.withLeds x).faultOverrun = s.faultOverrun := rfl
@[simp] theorem State.withLeds_wire (x : List Led) : (s.withLeds x).wire = s.wire := rfl
@[simp] theorem State.withLeds_inBootloader (x : List Led) : (s.withLeds x).inBootloader = s.inBootloader := rfl
@[simp] theorem State.withLeds_replies (x : List Led) : (s.withLeds x).replies = s.replies := rfl
@[simp] theorem State.withLeds_inputs (x : List Led) : (s.withLeds x).inputs = s.inputs := rfl
@[simp] theorem State.withLeds_interleave (x : List Led) : (s.withLeds x).interleave = s.interleave := rfl

@[simp] theorem State.withStg_cfg (x : Staging) : (s.withStg x).cfg = s.cfg := rfl
@[simp] theorem State.withStg_leds (x : Staging) : (s.withStg x).leds = s.leds := rfl
@[simp] theorem State.withStg_stg (x : Staging) : (s.withStg x).stg = x := rfl
@[simp] theorem State.withStg_status (x : Staging) : (s.withStg x).status = s.status := rfl
@[simp] theorem State.withStg_rstArmed (x : Staging) : (s.withStg x).rstArmed = s.rstArmed := rfl
@[simp] theorem State.withStg_tx (x : Staging) : (s.withStg x).tx = s.tx := rfl
@[simp] theorem State.withStg_faultOverrun (x : Staging) : (s.withStg x).faultOverrun = s.faultOverrun := rfl
@[simp] theorem State.withStg_wire (x : Staging) : (s.withStg x).wire = s.wire := rfl
@[simp] theorem State.withStg_inBootloader (x : Staging) : (s.withStg x).inBootloader = s.inBootloader := rfl
@[simp] theorem State.withStg_replies (x : Staging) : (s.withStg x).replies = s.replies := rfl
@[simp] theorem State.withStg_inputs (x : Staging) : (s.withStg x).inputs = s.inputs := rfl
@[simp] theorem State.withStg_interleave (x : Staging) : (s.withStg x).interleave = s.interleave := rfl

@[simp] theorem State.withStatus_cfg (x : Report) : (s.withStatus x).cfg = s.cfg := rfl
@[simp] theorem State.withStatus_leds (x : Report) : (s.withStatus x).leds = s.leds := rfl
@[simp] theorem State.withStatus_stg (x : Report) : (s.withStatus x).stg = s.stg := rfl
@[simp] theorem State.withStatus_status (x : Report) : (s.withStatus x).status = x := rfl
@[simp] theorem State.withStatus_rstArmed (x : Report) : (s.withStatus x).rstArmed = s.rstArmed := rfl
@[simp] theorem State.withStatus_tx (x : Report) : (s.withStatus x).tx = s.tx := rfl
@[simp] theorem State.withStatus_faultOverrun (x : Report) : (s.withStatus x).faultOverrun = s.faultOverrun := rfl
@[simp] theorem State.withStatus_wire (x : Report) : (s.withStatus x).wire = s.wire := rfl
@[simp] theorem State.withStatus_inBootloader (x : Report) : (s.withStatus x).inBootloader = s.inBootloader := rfl
@[simp] theorem State.withStatus_replies (x : Report) : (s.withStatus x).replies = s.replies := rfl
@[simp] theorem State.withStatus_inputs (x : Report) : (s.withStatus x).inputs = s.inputs := rfl
@[simp] theorem State.withStatus_interleave (x : Report) : (s.withStatus x).interleave = s.interleave := rfl

@[simp] theorem State.withRstArmed_cfg (x : Bool) : (s.withRstArmed x).cfg = s.cfg := rfl
@[simp] theorem State.withRstArmed_leds (x : Bool) : (s.withRstArmed x).leds = s.leds := rfl
@[simp] theorem State.withRstArmed_stg (x : Bool) : (s.withRstArmed x).stg = s.stg := rfl
@[simp] theorem State.withRstArmed_status (x : Bool) : (s.withRstArmed x).status = s.status := rfl
@[simp] theorem State.withRstArmed_rstArmed (x : Bool) : (s.withRstArmed x).rstArmed = x := rfl
@[simp] theorem State.withRstArmed_tx (x : Bool) : (s.withRstArmed x).tx = s.tx := rfl
@[simp] theorem State.withRstArmed_faultOverrun (x : Bool) : (s.withRstArmed x).faultOverrun = s.faultOverrun := rfl
@[simp] theorem State.withRstArmed_wire (x : Bool) : (s.withRstArmed x).wire = s.wire := rfl
@[simp] theorem State.withRstArmed_inBootloader (x : Bool) : (s.withRstArmed x).inBootloader = s.inBootloader := rfl
@[simp] theorem State.withRstArmed_replies (x : Bool) : (s.withRstArmed x).replies = s.replies := rfl
@[simp] theorem State.withRstArmed_inputs (x : Bool) : (s.withRstArmed x).inputs = s.inputs := rfl
@[simp] theorem State.withRstArmed_interleave (x : Bool) : (s.withRstArmed x).interleave = s.interleave := rfl

@[simp] theorem State.withTx_cfg (x : Tx) : (s.withTx x).cfg = s.cfg := rfl
@[simp] theorem State.withTx_leds (x : Tx) : (s.withTx x).leds = s.leds := rfl
@[simp] theorem State.withTx_stg (x : Tx) : (s.withTx x).stg = s.stg := rfl
@[simp] theorem State.withTx_status (x : Tx) : (s.withTx x).status = s.status := rfl
@[simp] theorem State.withTx_rstArmed (x : Tx) : (s.withTx x).rstArmed = s.rstArmed := rfl
@[simp] theorem State.withTx_tx (x : Tx) : (s.withTx x).tx = x := rfl
@[simp] theorem State.withTx_faultOverrun (x : Tx) : (s.withTx x).faultOverrun = s.faultOverrun := rfl
@[simp] theorem State.withTx_wire (x : Tx) : (s.withTx x).wire = s.wire := rfl
@[simp] theorem State.withTx_inBootloader (x : Tx) : (s.withTx x).inBootloader = s.inBootloader := rfl
@[simp] theorem State.withTx_replies (x : Tx) : (s.withTx x).replies = s.replies := rfl
@[simp] theorem State.withTx_inputs (x : Tx) : (s.withTx x).inputs = s.inputs := rfl
@[simp] theorem State.withTx_interleave (x : Tx) : (s.withTx x).interleave = s.interleave := rfl

@[simp] theorem State.withFaultOverrun_cfg (x : Bool) : (s.withFaultOverrun x).cfg = s.cfg := rfl
@[simp] theorem State.withFaultOverrun_leds (x : Bool) : (s.withFaultOverrun x).leds = s.leds := rfl
@[simp] theorem State.withFaultOverrun_stg (x : Bool) : (s.withFaultOverrun x).stg = s.stg := rfl
@[simp] theorem State.withFaultOverrun_status (x : Bool) : (s.withFaultOverrun x).status = s.status := rfl
@[simp] theorem State.withFaultOverrun_rstArmed (x : Bool) : (s.withFaultOverrun x).rstArmed = s.rstArmed := rfl
@[simp] theorem State.withFaultOverrun_tx (x : Bool) : (s.withFaultOverrun x).tx = s.tx := rfl
@[simp] theorem State.withFaultOverrun_faultOverrun (x : Bool) : (s.withFaultOverrun x).faultOverrun = x := rfl
@[simp] theorem State.withFaultOverrun_wire (x : Bool) : (s.withFaultOverrun x).wire = s.wire := rfl
@[simp] theorem State.withFaultOverrun_inBootloader (x : Bool) : (s.withFaultOverrun x).inBootloader = s.inBootloader := rfl
@[simp] theorem State.withFaultOverrun_replies (x : Bool) : (s.withFaultOverrun x).replies = s.replies := rfl
@[simp] theorem State.withFaultOverrun_inputs (x : Bool) : (s.withFaultOverrun x).inputs = s.inputs := rfl
@[simp] theorem State.withFaultOverrun_interleave (x : Bool) : (s.withFaultOverrun x).interleave = s.interleave := rfl

@[simp] theorem State.withWire_cfg (x : List Byte) : (s.withWire x).cfg = s.cfg := rfl
@[simp] theorem State.withWire_leds (x : List Byte) : (s.withWire x).leds = s.leds := rfl
@[simp] theorem State.withWire_stg (x : List Byte) : (s.withWire x).stg = s.stg := rfl
@[simp] theorem State.withWire_status (x : List Byte) : (s.withWire x).status = s.status := rfl
@[simp] theorem State.withWire_rstArmed (x : List Byte) : (s.withWire x).rstArmed = s.rstArmed := rfl
@[simp] theorem State.withWire_tx (x : List Byte) : (s.withWire x).tx = s.tx := rfl
@[simp] theorem State.withWire_faultOverrun (x : List Byte) : (s.withWire x).faultOverrun = s.faultOverrun := rfl
@[simp] theorem State.withWire_wire (x : List Byte) : (s.withWire x).wire = x := rfl
@[simp] theorem State.withWire_inBootloader (x : List Byte) : (s.withWire x).inBootloader = s.inBootloader := rfl
@[simp] theorem State.withWire_replies (x : List Byte) : (s.withWire x).replies = s.replies := rfl
@[simp] theorem State.withWire_inputs (x : List Byte) : (s.withWire x).inputs = s.inputs := rfl
@[simp] theorem State.withWire_interleave (x : List Byte) : (s.withWire x).interleave = s.interleave := rfl

@[simp] theorem State.withInBootloader_cfg (x : Bool) : (s.withInBootloader x).cfg = s.cfg := rfl
@[simp] theorem State.withInBootloader_leds (x : Bool) : (s.withInBootloader x).leds = s.leds := rfl
@[simp] theorem State.withInBootloader_stg (x : Bool) : (s.withInBootloader x).stg = s.stg := rfl
@[simp] theorem State.withInBootloader_status (x : Bool) : (s.withInBootloader x).status = s.status := rfl
@[simp] theorem State.withInBootloader_rstArmed (x : Bool) : (s.withInBootloader x).rstArmed = s.rstArmed := rfl
@[simp] theorem State.withInBootloader_tx (x : Bool) : (s.withInBootloader x).tx = s.tx := rfl
@[simp] theorem State.withInBootloader_faultOverrun (x : Bool) : (s.withInBootloader x).faultOverrun = s.faultOverrun := rfl
@[simp] theorem State.withInBootloader_wire (x : Bool) : (s.withInBootloader x).wire = s.wire := rfl
@[simp] theorem State.withInBootloader_inBootloader (x : Bool) : (s.withInBootloader x).inBootloader = x := rfl
@[simp] theorem State.withInBootloader_replies (x : Bool) : (s.withInBootloader x).replies = s.replies := rfl
@[simp] theorem State.withInBootloader_inputs (x : Bool) : (s.withInBootloader x).inputs = s.inputs := rfl
@[simp] theorem State.withInBootloader_interleave (x : Bool) : (s.withInBootloader x).interleave = s.interleave := rfl

@[simp] theorem State.withReplies_cfg (x : List Report) : (s.withReplies x).cfg = s.cfg := rfl
@[simp] theorem State.withReplies_leds (x : List Report) : (s.withReplies x).leds = s.leds := rfl
@[simp] theorem State.withReplies_stg (x : List Report) : (s.withReplies x).stg = s.stg := rfl
@[simp] theorem State.withReplies_status (x : List Report) : (s.withReplies x).status = s.status := rfl
@[simp] theorem State.withReplies_rstArmed (x : List Report) : (s.withReplies x).rstArmed = s.rstArmed := rfl
@[simp] theorem State.withReplies_tx (x : List Report) : (s.withReplies x).tx = s.tx := rfl
@[simp] theorem State.withReplies_faultOverrun (x : List Report) : (s.withReplies x).faultOverrun = s.faultOverrun := rfl
@[simp] theorem State.withReplies_wire (x : List Report) : (s.withReplies x).wire = s.wire := rfl
@[simp] theorem State.withReplies_inBootloader (x : List Report) : (s.withReplies x).inBootloader = s.inBootloader := rfl
@[simp] theorem State.withReplies_replies (x : List Report) : (s.withReplies x).replies = x := rfl
@[simp] theorem State.withReplies_inputs (x : List Report) : (s.withReplies x).inputs = s.inputs := rfl
@[simp] theorem State.withReplies_interleave (x : List Report) : (s.withReplies x).interleave = s.interleave := rfl

@[simp] theorem State.withInputs_cfg (x : List Event) : (s.withInputs x).cfg = s.cfg := rfl
@[simp] theorem State.withInputs_leds (x : List Event) : (s.withInputs x).leds = s.leds := rfl
@[simp] theorem State.withInputs_stg (x : List Event) : (s.withInputs x).stg = s.stg := rfl
@[simp] theorem State.withInputs_status (x : List Event) : (s.withInputs x).status = s.status := rfl
@[simp] theorem State.withInputs_rstArmed (x : List Event) : (s.withInputs x).rstArmed = s.rstArmed := rfl
@[simp] theorem State.withInputs_tx (x : List Event) : (s.withInputs x).tx = s.tx := rfl
@[simp] theorem State.withInputs_faultOverrun (x : List Event) : (s.withInputs x).faultOverrun = s.faultOverrun := rfl
@[simp] theorem State.withInputs_wire (x : List Event) : (s.withInputs x).wire = s.wire := rfl
@[simp] theorem State.withInputs_inBootloader (x : List Event) : (s.withInputs x).inBootloader = s.inBootloader := rfl
@[simp] theorem State.withInputs_replies (x : List Event) : (s.withInputs x).replies = s.replies := rfl
@[simp] theorem State.withInputs_inputs (x : List Event) : (s.withInputs x).inputs = x := rfl
@[simp] theorem State.withInputs_interleave (x : List Event) : (s.withInputs x).interleave = s.interleave := rfl

@[simp] theorem State.withInterleave_cfg (x : List Micro) : (s.withInterleave x).cfg = s.cfg := rfl
@[simp] theorem State.withInterleave_leds (x : List Micro) : (s.withInterleave x).leds = s.leds := rfl
@[simp] theorem State.withInterleave_stg (x : List Micro) : (s.withInterleave x).stg = s.stg := rfl
@[simp] theorem State.withInterleave_status (x : List Micro) : (s.withInterleave x).status = s.status := rfl
@[simp] theorem State.withInterleave_rstArmed (x : List Micro) : (s.withInterleave x).rstArmed = s.rstArmed := rfl
@[simp] theorem State.withInterleave_tx (x : List Micro) : (s.withInterleave x).tx = s.tx := rfl
@[simp] theorem State.withInterleave_faultOverrun (x : List Micro) : (s.withInterleave x).faultOverrun = s.faultOverrun := rfl
@[simp] theorem State.withInterleave_wire (x : List Micro) : (s.withInterleave x).wire = s.wire := rfl
@[simp] theorem State.withInterleave_inBootloader (x : List Micro) : (s.withInterleave x).inBootloader = s.inBootloader := rfl
@[simp] theorem State.withInterleave_replies (x : List Micro) : (s.withInterleave x).replies = s.replies := rfl
@[simp] theorem State.withInterleave_inputs (x : List Micro) : (s.withInterleave x).inputs = s.inputs := rfl
@[simp] theorem State.withInterleave_interleave (x : List Micro) : (s.withInterleave x).interleave = x := rfl

@[simp] theorem State.withStg_ledCount (x : Staging) : (s.withStg x).ledCount = s.ledCount := rfl
@[simp] theorem State.withStatus_ledCount (x : Report) : (s.withStatus x).ledCount = s.ledCount := rfl
@[simp] theorem State.withRstArmed_ledCount (x : Bool) : (s.withRstArmed x).ledCount = s.ledCount := rfl
@[simp] theorem State.withTx_ledCount (x : Tx) : (s.withTx x).ledCount = s.ledCount := rfl
@[simp] theorem State.withFaultOverrun_ledCount (x : Bool) : (s.withFaultOverrun x).ledCount = s.ledCount := rfl
@[simp] theorem State.withWire_ledCount (x : List Byte) : (s.withWire x).ledCount = s.ledCount := rfl
@[simp] theorem State.withInBootloader_ledCount (x : Bool) : (s.withInBootloader x).ledCount = s.ledCount := rfl
@[simp] theorem State.withReplies_ledCount (x : List Report) : (s.withReplies x).ledCount = s.ledCount := rfl
@[simp] theorem State.withInputs_ledCount (x : List Event) : (s.withInputs x).ledCount = s.ledCount := rfl
@[simp] theorem State.withInterleave_ledCount (x : List Micro) : (s.withInterleave x).ledCount = s.ledCount := rfl

end Sys2Proof.Machine
end

