-- ==== Sys2Proof/Laws/Ops.lean ====
section
/-! SUPPORT. What the shared operations of Machine/Ops.lean and Machine/Operands.lean do, said once. -/

namespace Sys2Proof.Machine

variable (s : State)

/-! ### Applying a function to the selected LEDs -/

@[simp] theorem State.onLeds_cfg (n : Nat) (f : Led → Led) : (s.onLeds n f).cfg = s.cfg := by
  cases n <;> rfl
@[simp] theorem State.onLeds_stg (n : Nat) (f : Led → Led) : (s.onLeds n f).stg = s.stg := by
  cases n <;> rfl
@[simp] theorem State.onLeds_status (n : Nat) (f : Led → Led) : (s.onLeds n f).status = s.status := by
  cases n <;> rfl
@[simp] theorem State.onLeds_rstArmed (n : Nat) (f : Led → Led) : (s.onLeds n f).rstArmed = s.rstArmed := by
  cases n <;> rfl
@[simp] theorem State.onLeds_tx (n : Nat) (f : Led → Led) : (s.onLeds n f).tx = s.tx := by
  cases n <;> rfl
@[simp] theorem State.onLeds_faultOverrun (n : Nat) (f : Led → Led) : (s.onLeds n f).faultOverrun = s.faultOverrun := by
  cases n <;> rfl
@[simp] theorem State.onLeds_wire (n : Nat) (f : Led → Led) : (s.onLeds n f).wire = s.wire := by
  cases n <;> rfl
@[simp] theorem State.onLeds_inBootloader (n : Nat) (f : Led → Led) : (s.onLeds n f).inBootloader = s.inBootloader := by
  cases n <;> rfl
@[simp] theorem State.onLeds_replies (n : Nat) (f : Led → Led) : (s.onLeds n f).replies = s.replies := by
  cases n <;> rfl
@[simp] theorem State.onLeds_inputs (n : Nat) (f : Led → Led) : (s.onLeds n f).inputs = s.inputs := by
  cases n <;> rfl
@[simp] theorem State.onLeds_interleave (n : Nat) (f : Led → Led) : (s.onLeds n f).interleave = s.interleave := by
  cases n <;> rfl

/-- The only field `onLeds` writes is the LED array. -/
theorem State.onLeds_eq (n : Nat) (f : Led → Led) : s.onLeds n f = s.withLeds (s.onLeds n f).leds := by
  cases n <;> rfl

/-- LED at list position `j` after `onLeds`: `f` of it if the destination selects it, else as before. -/
theorem State.onLeds_getElem? (n : Nat) (f : Led → Led) (j : Nat) :
    (s.onLeds n f).leds[j]? = if n = 0 ∨ n = j + 1 then s.leds[j]?.map f else s.leds[j]? := by
  cases n with
  | zero => simp [State.onLeds]
  | succ i =>
    simp only [State.onLeds, State.withLeds_leds, List.getElem?_modify, Nat.add_right_cancel_iff,
      Nat.add_one_ne_zero, false_or]
    split <;> simp

@[simp] theorem State.onLeds_length (n : Nat) (f : Led → Led) :
    (s.onLeds n f).leds.length = s.leds.length := by
  cases n <;> simp [State.onLeds]

@[simp] theorem State.onLeds_ledCount (n : Nat) (f : Led → Led) : (s.onLeds n f).ledCount = s.ledCount := by
  simp [State.ledCount]

/-- Every LED after `onLeds` is one from before, or `f` of one. -/
theorem State.mem_onLeds (n : Nat) (f : Led → Led) {l : Led} (h : l ∈ (s.onLeds n f).leds) :
    ∃ l₀ ∈ s.leds, l = l₀ ∨ l = f l₀ := by
  obtain ⟨j, hj⟩ := List.mem_iff_getElem?.1 h
  rw [State.onLeds_getElem?] at hj
  split at hj
  · obtain ⟨l₀, h₀, rfl⟩ := Option.map_eq_some_iff.1 hj
    exact ⟨l₀, List.mem_of_getElem? h₀, .inr rfl⟩
  · exact ⟨l, List.mem_of_getElem? hj, .inl rfl⟩

/-! ### One byte of the Color Store -/

@[simp] theorem PerChannel.get_of {α : Type} (f : Channel → α) (c : Channel) :
    (PerChannel.of f).get c = f c := by cases c <;> rfl

@[simp] theorem PerChannel.get_set {α : Type} (v : PerChannel α) (x : α) (c d : Channel) :
    (v.set x c).get d = if d = c then x else v.get d := by cases c <;> cases d <;> rfl

theorem PerChannel.ext_get {α : Type} {v w : PerChannel α} (h : ∀ c, v.get c = w.get c) : v = w := by
  have hg := h .g
  have hr := h .r
  have hb := h .b
  cases v
  cases w
  simp_all [PerChannel.get]

/-- `CSByte` through the list of LEDs. -/
theorem State.csByte_eq (k : Nat) : s.csByte k =
    match s.leds[k / 3]? with
    | some l => l.cs.get (channelOfOffset k)
    | none => Config.absentByte k := by
  have h : s.led? (ledOfOffset k) = s.leds[k / 3]? := by simp [ledOfOffset, State.led?, Nat.add_comm 1]
  unfold State.csByte
  generalize s.led? (ledOfOffset k) = x at h
  subst h
  cases s.leds[k / 3]? <;> rfl

/-- `CSByte` depends on the displayed colours only. -/
theorem State.csByte_congr {s t : State} (h : s.leds.map (·.cs) = t.leds.map (·.cs)) (k : Nat) :
    s.csByte k = t.csByte k := by
  have hk := congrArg (·[k / 3]?) h
  simp only [List.getElem?_map] at hk
  rw [State.csByte_eq, State.csByte_eq]
  cases hs : s.leds[k / 3]? <;> cases ht : t.leds[k / 3]? <;> simp_all

/-- The byte at offset `k` names the LED and the channel it is read from, and no other offset names both. -/
theorem offset_ext {j k : Nat} (h : ledOfOffset j = ledOfOffset k)
    (hc : channelOfOffset j = channelOfOffset k) : j = k := by
  have hj : j % 3 = 0 ∨ j % 3 = 1 ∨ j % 3 = 2 := by omega
  have hk : k % 3 = 0 ∨ k % 3 = 1 ∨ k % 3 = 2 := by omega
  simp only [ledOfOffset] at h
  rcases hj with hj | hj | hj <;> rcases hk with hk | hk | hk <;>
    simp [channelOfOffset, hj, hk] at hc <;> omega

@[simp] theorem State.writeCsByte_cfg (k : Nat) (x : Byte) : (s.writeCsByte k x).cfg = s.cfg := by
  simp [State.writeCsByte]
@[simp] theorem State.writeCsByte_stg (k : Nat) (x : Byte) : (s.writeCsByte k x).stg = s.stg := by
  simp [State.writeCsByte]
@[simp] theorem State.writeCsByte_status (k : Nat) (x : Byte) : (s.writeCsByte k x).status = s.status := by
  simp [State.writeCsByte]
@[simp] theorem State.writeCsByte_rstArmed (k : Nat) (x : Byte) : (s.writeCsByte k x).rstArmed = s.rstArmed := by
  simp [State.writeCsByte]
@[simp] theorem State.writeCsByte_tx (k : Nat) (x : Byte) : (s.writeCsByte k x).tx = s.tx := by
  simp [State.writeCsByte]
@[simp] theorem State.writeCsByte_faultOverrun (k : Nat) (x : Byte) : (s.writeCsByte k x).faultOverrun = s.faultOverrun := by
  simp [State.writeCsByte]
@[simp] theorem State.writeCsByte_wire (k : Nat) (x : Byte) : (s.writeCsByte k x).wire = s.wire := by
  simp [State.writeCsByte]
@[simp] theorem State.writeCsByte_inBootloader (k : Nat) (x : Byte) : (s.writeCsByte k x).inBootloader = s.inBootloader := by
  simp [State.writeCsByte]
@[simp] theorem State.writeCsByte_replies (k : Nat) (x : Byte) : (s.writeCsByte k x).replies = s.replies := by
  simp [State.writeCsByte]
@[simp] theorem State.writeCsByte_inputs (k : Nat) (x : Byte) : (s.writeCsByte k x).inputs = s.inputs := by
  simp [State.writeCsByte]
@[simp] theorem State.writeCsByte_interleave (k : Nat) (x : Byte) : (s.writeCsByte k x).interleave = s.interleave := by
  simp [State.writeCsByte]

@[simp] theorem State.writeCsByte_ledCount (k : Nat) (x : Byte) :
    (s.writeCsByte k x).ledCount = s.ledCount := by simp [State.writeCsByte]

/-- A byte read after a byte write: the value written at the offset written, the old value elsewhere. -/
theorem State.csByte_writeCsByte (k j : Nat) (x : Byte) (hj : j < 3 * s.ledCount) :
    (s.writeCsByte k x).csByte j = if j = k then x else s.csByte j := by
  have hlt : j / 3 < s.leds.length := by simp only [State.ledCount] at hj; omega
  rw [State.csByte_eq, State.csByte_eq, State.writeCsByte, State.onLeds_getElem?,
    List.getElem?_eq_getElem hlt]
  by_cases hl : ledOfOffset k = 0 ∨ ledOfOffset k = j / 3 + 1
  · have hl' : ledOfOffset j = ledOfOffset k := by simp only [ledOfOffset] at hl ⊢; omega
    rw [if_pos hl]
    by_cases hc : channelOfOffset j = channelOfOffset k
    · simp [offset_ext hl' hc]
    · have hjk : j ≠ k := fun h => hc (h ▸ rfl)
      simp [hc, hjk]
  · have hjk : j ≠ k := by rintro rfl; simp [ledOfOffset, Nat.add_comm] at hl
    simp [hl, hjk]

/-! ### Operands -/

/-- The normalised destination as a number (30_encoding.md R99). -/
theorem normalise_toNat (ledCount : Nat) (raw : Byte) :
    (normalise ledCount raw).toNat = if raw.toNat > ledCount then 0 else raw.toNat := by
  unfold normalise
  split <;> simp

theorem normalise_le (ledCount : Nat) (raw : Byte) : (normalise ledCount raw).toNat ≤ ledCount := by
  rw [normalise_toNat]
  split <;> omega

/-! ### Reset -/

@[simp] theorem resetBlock_cfg : (resetBlock s).cfg = s.cfg := rfl

@[simp] theorem resetBlock_ledCount : (resetBlock s).ledCount = s.ledCount := by
  simp [resetBlock, State.ledCount, State.resetWith, State.withInputs, State.withReplies]

end Sys2Proof.Machine
end

