-- ==== Sys2Proof/Laws/Fade.lean ====
section
/-! SUPPORT. The fade arithmetic as natural numbers, and what one tick of one LED does. -/

namespace Sys2Proof.Machine

/-! ### Increments -/

theorem and_mask_toNat (x : Half) : (x &&& 0xFFFE#16).toNat = x.toNat / 2 * 2 := by
  have h : x &&& 0xFFFE#16 = (x >>> 1) <<< 1 := by
    ext i hi
    have : i = 0 ∨ i ≠ 0 := by omega
    interval_cases i <;> simp
  rw [h]
  simp [BitVec.toNat_shiftLeft, Nat.shiftLeft_eq, Nat.shiftRight_eq_div_pow]
  omega

/-- The rate of an increment is the increment with bit 0 cleared. -/
theorem magnitude_toNat (inc : Half) : (magnitude inc).toNat = inc.toNat / 2 * 2 := and_mask_toNat inc

/-- The direction of an increment is its parity. -/
theorem direction_eq (inc : Half) : direction inc = decide (inc.toNat % 2 = 1) := by
  simp [direction, BitVec.getLsbD, Nat.testBit_zero]

/-- Packing keeps the quotient but for bit 0, which becomes the direction. -/
theorem packIncrement_toNat (q : Half) (d : Bool) :
    (packIncrement q d).toNat = q.toNat / 2 * 2 + (if d then 1 else 0) := by
  have h : packIncrement q d = (q &&& 0xFFFE#16) + (if d then 1#16 else 0#16) := by
    unfold packIncrement
    rw [BitVec.add_eq_or_of_and_eq_zero]
    cases d
    · simp
    · ext i hi
      interval_cases i <;> simp
  rw [h, BitVec.toNat_add, and_mask_toNat]
  have := q.isLt
  cases d <;> simp <;> omega

theorem distance_eq (target cur : Byte) :
    distance target cur = (target.toNat - cur.toNat) + (cur.toNat - target.toNat) := by
  unfold distance
  split <;> omega

theorem distance_lt (target cur : Byte) : distance target cur < 256 := by
  have := target.isLt
  have := cur.isLt
  rw [distance_eq]
  omega

/-- The quotient fits 16 bits (40_begin_fade.md R125). -/
theorem quotient_lt (target cur : Byte) (dur : Half) :
    distance target cur * 256 / dur.toNat < 65536 := by
  have h₁ := distance_lt target cur
  have h₂ := Nat.div_le_self (distance target cur * 256) dur.toNat
  omega

/-! ### Ramp steps -/

theorem rampSum_toNat (inc : Half) (frac : Byte) :
    (rampSum inc frac).toNat = (frac.toNat + inc.toNat / 2 * 2) % 65536 := by
  have := frac.isLt
  simp [rampSum, BitVec.toNat_add, magnitude_toNat]

theorem rampFrac_toNat (inc : Half) (frac : Byte) :
    (rampFrac inc frac).toNat = (rampSum inc frac).toNat % 256 := by
  simp [rampFrac]

theorem rampValue_toNat (inc : Half) (frac cur : Byte) :
    (rampValue inc frac cur).toNat =
      (if direction inc then cur.toNat + (rampSum inc frac).toNat / 256
       else cur.toNat + 256 - (rampSum inc frac).toNat / 256) % 256 := by
  have h : ((rampSum inc frac).extractLsb' 8 8).toNat = (rampSum inc frac).toNat / 256 := by
    have := (rampSum inc frac).isLt
    simp [Nat.shiftRight_eq_div_pow]
    omega
  have hs := (rampSum inc frac).isLt
  have := cur.isLt
  unfold rampValue
  split
  · rw [BitVec.toNat_add, h]
  · rw [BitVec.toNat_sub, h]
    congr 1
    omega

/-! ### One tick of one LED -/

theorem countDown_toNat {l : Led} (h : l.rem ≠ 0) : (countDown l).rem.toNat = l.rem.toNat - 1 := by
  have h₀ : l.rem.toNat ≠ 0 := fun e => h (BitVec.eq_of_toNat_eq e)
  have := l.rem.isLt
  simp only [countDown, BitVec.toNat_sub]
  simp
  omega

theorem ramping_iff (l : Led) : ramping l = true ↔ l.rem ≠ 0 := by simp [ramping]

/-- What one tick does to one LED: nothing, a snap, or a ramp step (41_fade_tick.md R141, R142). -/
theorem fadeStep_cases (l : Led) :
    (l.rem = 0 ∧ fadeStep l = l) ∨
    (l.rem.toNat = 1 ∧ fadeStep l = snap (countDown l)) ∨
    (2 ≤ l.rem.toNat ∧ fadeStep l = ramp (countDown l)) := by
  by_cases h : l.rem = 0
  · exact .inl ⟨h, by simp [fadeStep, ramping_iff, h]⟩
  · have h₀ : l.rem.toNat ≠ 0 := fun e => h (BitVec.eq_of_toNat_eq e)
    have hc := countDown_toNat h
    by_cases h₁ : (countDown l).rem = 0
    · refine .inr (.inl ⟨?_, by simp only [fadeStep, ramping_iff, ne_eq, h, h₁, not_false_eq_true, not_true, if_true, if_false]⟩)
      rw [h₁] at hc
      simp at hc
      omega
    · refine .inr (.inr ⟨?_, by simp only [fadeStep, ramping_iff, ne_eq, h, h₁, not_false_eq_true, if_true]⟩)
      have : (countDown l).rem.toNat ≠ 0 := fun e => h₁ (BitVec.eq_of_toNat_eq e)
      omega

/-- A tick never writes the increments or the target (41_fade_tick.md R147). -/
theorem fadeStep_inc_tgt (l : Led) : (fadeStep l).inc = l.inc ∧ (fadeStep l).tgt = l.tgt := by
  rcases fadeStep_cases l with ⟨_, h⟩ | ⟨_, h⟩ | ⟨_, h⟩ <;> rw [h] <;> exact ⟨rfl, rfl⟩

end Sys2Proof.Machine
end

