-- ==== Sys2Proof/Laws/Transmitter.lean ====
section
/-! SUPPORT. What the completion handler can do, said once. -/

namespace Sys2Proof.Machine

variable (s : State)

/-- The handler writes the transmitter's registers and `WIRE`, and nothing else. -/
theorem txByteComplete_eq :
    txByteComplete s = (s.withTx (txByteComplete s).tx).withWire (txByteComplete s).wire := by
  unfold txByteComplete
  split
  · split
    · split <;> rfl
    · rfl
  · rfl

/-- The handler appends at most one byte, and only a sanctioned one (42_transmitter.md R168). -/
theorem txByteComplete_wire :
    ∃ sent, (txByteComplete s).wire = s.wire ++ sent ∧ sent.length ≤ 1 ∧
      ∀ x ∈ sent, x = s.cfg.pat1 ∨ x = s.cfg.pat0 := by
  have hp : ∀ b, pattern s.cfg b = s.cfg.pat1 ∨ pattern s.cfg b = s.cfg.pat0 := by
    intro b
    cases b <;> simp [pattern]
  unfold txByteComplete
  split
  · split
    · split
      · exact ⟨[], by simp [txFinish], by simp, by simp⟩
      · exact ⟨[_], rfl, by simp, fun x hx => List.mem_singleton.1 hx ▸ hp _⟩
    · exact ⟨[_], rfl, by simp, fun x hx => List.mem_singleton.1 hx ▸ hp _⟩
  · exact ⟨[], by simp, by simp, by simp⟩

/-- While the signal is masked a completion has no effect (60_exceptions.md R225). -/
theorem txByteComplete_masked (h : s.tx.en = false) : txByteComplete s = s := by
  simp [txByteComplete, h]

@[simp] theorem txByteComplete_cfg : (txByteComplete s).cfg = s.cfg := by
  rw [txByteComplete_eq]; rfl
@[simp] theorem txByteComplete_leds : (txByteComplete s).leds = s.leds := by
  rw [txByteComplete_eq]; rfl
@[simp] theorem txByteComplete_stg : (txByteComplete s).stg = s.stg := by
  rw [txByteComplete_eq]; rfl
@[simp] theorem txByteComplete_status : (txByteComplete s).status = s.status := by
  rw [txByteComplete_eq]; rfl
@[simp] theorem txByteComplete_rstArmed : (txByteComplete s).rstArmed = s.rstArmed := by
  rw [txByteComplete_eq]; rfl
@[simp] theorem txByteComplete_faultOverrun : (txByteComplete s).faultOverrun = s.faultOverrun := by
  rw [txByteComplete_eq]; rfl
@[simp] theorem txByteComplete_inBootloader : (txByteComplete s).inBootloader = s.inBootloader := by
  rw [txByteComplete_eq]; rfl
@[simp] theorem txByteComplete_replies : (txByteComplete s).replies = s.replies := by
  rw [txByteComplete_eq]; rfl
@[simp] theorem txByteComplete_inputs : (txByteComplete s).inputs = s.inputs := by
  rw [txByteComplete_eq]; rfl
@[simp] theorem txByteComplete_interleave : (txByteComplete s).interleave = s.interleave := by
  rw [txByteComplete_eq]; rfl
@[simp] theorem txByteComplete_ledCount : (txByteComplete s).ledCount = s.ledCount := by
  simp [State.ledCount]

end Sys2Proof.Machine
end

