-- ==== Sys2Proof/Laws/Commands.lean ====
section
/-! SUPPORT. What an immediate set does whatever its interleaving, and what BEGIN_FADE does. -/

namespace Sys2Proof.Machine

variable (n : Nat) (target : Colour) (s : State)

/-! ### The interleaving of an immediate set -/

@[simp] theorem microRun_nil : microRun n target s [] = s := rfl

@[simp] theorem microRun_cons (m : Micro) (ms : List Micro) :
    microRun n target s (m :: ms) = microRun n target (microStep n target s m) ms := rfl

theorem microRun_append (ms ms' : List Micro) :
    microRun n target s (ms ++ ms') = microRun n target (microRun n target s ms) ms' := by
  simp [microRun]

/-- A property of states that handler steps and covered byte writes keep holds after any interleaving. -/
theorem microRun_induction {P : State → Prop} (handler : ∀ t, P t → P (txByteComplete t))
    (write : ∀ t k, covers n k = true → P t → P (t.writeCsByte k (target.get (channelOfOffset k))))
    (ms : List Micro) (h : P s) : P (microRun n target s ms) := by
  induction ms generalizing s with
  | nil => exact h
  | cons m ms ih =>
    refine ih _ ?_
    cases m with
    | handler => exact handler _ h
    | write k =>
      simp only [microStep]
      split
      · exact write _ _ ‹_› h
      · exact h

/-- An interleaving writes the Color Store bytes the command covers, the transmitter and `WIRE` only, and
no field of an LED but its colour. -/
theorem microRun_frame (ms : List Micro) :
    microRun n target s ms =
      { s with
        leds := (microRun n target s ms).leds
        tx := (microRun n target s ms).tx
        wire := (microRun n target s ms).wire } := by
  refine microRun_induction n target s
    (P := fun t => t = { s with leds := t.leds, tx := t.tx, wire := t.wire }) ?_ ?_ ms rfl
  · intro t ht
    rw [txByteComplete_eq, ht]
    rfl
  · intro t k _ ht
    rw [State.writeCsByte, State.onLeds_eq, ht]
    rfl

/-- The LEDs during an immediate set: an LED the command does not cover is as before, and a covered one
differs at most in its colour. -/
theorem microRun_leds (ms : List Micro) (j : Nat) :
    (microRun n target s ms).leds[j]? = s.leds[j]? ∨
    ((n = 0 ∨ n = j + 1) ∧ ∃ l col, s.leds[j]? = some l ∧
      (microRun n target s ms).leds[j]? = some { l with cs := col }) := by
  refine microRun_induction n target s
    (P := fun t => t.leds[j]? = s.leds[j]? ∨ ((n = 0 ∨ n = j + 1) ∧ ∃ l col, s.leds[j]? = some l ∧
      t.leds[j]? = some { l with cs := col })) ?_ ?_ ms (.inl rfl)
  · intro t ht
    simpa using ht
  · intro t k hk ht
    rw [State.writeCsByte, State.onLeds_getElem?]
    split
    · rename_i hkj
      have hn : n = 0 ∨ n = j + 1 := by
        simp only [covers, Bool.or_eq_true, beq_iff_eq] at hk
        simp only [ledOfOffset] at hk hkj
        omega
      rcases ht with ht | ⟨_, l, col, hl, ht⟩
      · cases hs : s.leds[j]? with
        | none => exact .inl (by simp [ht, hs])
        | some l => exact .inr ⟨hn, l, _, rfl, by rw [ht, hs]; rfl⟩
      · exact .inr ⟨hn, l, _, hl, by rw [ht]; rfl⟩
    · exact ht

/-- An interleaving with no handler step in it, or with the signal masked, leaves the transmitter alone. -/
theorem microRun_tx (ms : List Micro) (h : s.tx.en = false ∨ Micro.handler ∉ ms) :
    (microRun n target s ms).tx = s.tx ∧ (microRun n target s ms).wire = s.wire := by
  induction ms generalizing s with
  | nil => exact ⟨rfl, rfl⟩
  | cons m ms ih =>
    cases m with
    | handler =>
      have hs : s.tx.en = false := h.resolve_right (by simp)
      rw [microRun_cons, microStep, txByteComplete_masked s hs]
      exact ih s (.inl hs)
    | write k =>
      have h' : s.tx.en = false ∨ Micro.handler ∉ ms := h.imp_right fun hm hms => hm (by simp [hms])
      rw [microRun_cons]
      simp only [microStep]
      split
      · simpa using ih (s.writeCsByte k (target.get (channelOfOffset k))) (by simpa using h')
      · exact ih s h'

/-- An immediate set, whatever its interleaving: the selected LEDs hold the new colour and no fade, every
other LED is as before, and beside the LEDs only the transmitter and `WIRE` can have moved. -/
theorem immediateSet_leds (j : Nat) :
    (immediateSet n target s).leds[j]? =
      if n = 0 ∨ n = j + 1 then s.leds[j]?.map (setNow target) else s.leds[j]? := by
  rw [immediateSet, State.onLeds_getElem?]
  split
  · rcases microRun_leds n target s s.interleave j with h | ⟨_, l, col, hl, h⟩
    · rw [h]
    · rw [h, hl]
      rfl
  · rename_i hn
    exact (microRun_leds n target s s.interleave j).resolve_right fun h => hn h.1

theorem immediateSet_frame :
    immediateSet n target s =
      { s with
        leds := (immediateSet n target s).leds
        tx := (microRun n target s s.interleave).tx
        wire := (microRun n target s s.interleave).wire } := by
  rw [immediateSet, State.onLeds_eq, microRun_frame]
  rfl

theorem microRun_length (ms : List Micro) : (microRun n target s ms).leds.length = s.leds.length :=
  microRun_induction n target s (P := fun t => t.leds.length = s.leds.length) (fun t h => by simpa using h)
    (fun t k _ h => by simpa [State.writeCsByte] using h) ms rfl

@[simp] theorem immediateSet_ledCount : (immediateSet n target s).ledCount = s.ledCount := by
  simp [immediateSet, State.ledCount, microRun_length]

/-! ### BEGIN_FADE and the two fade commands -/

theorem beginFade_ramp {dur : Half} (h : dur ≠ 0) :
    beginFade n target dur s = s.onLeds n (rampSetup target dur) := if_neg h

theorem beginFade_now : beginFade n target 0 s = immediateSet n target s := rfl

/-- A fade command is BEGIN_FADE of its operands, after the staging write (43_commands.md R196). -/
theorem fadeCommand_eq (p : Payload) :
    fadeCommand p s = beginFade (normalise s.ledCount p.dest).toNat (colourOf p) p.dur (stage p s) := rfl

/-- Beside the LEDs BEGIN_FADE leaves everything but the transmitter and `WIRE`, which only an immediate
set's handler steps move. -/
theorem beginFade_frame (dur : Half) :
    beginFade n target dur s =
      { s with
        leds := (beginFade n target dur s).leds
        tx := (beginFade n target dur s).tx
        wire := (beginFade n target dur s).wire } := by
  unfold beginFade
  split
  · rw [immediateSet_frame]
  · rw [State.onLeds_eq]
    rfl

end Sys2Proof.Machine
end

