-- ==== Sys2Proof/Laws/Decode.lean ====
section
/-! SUPPORT. The report's fields and bytes are the same information. -/

namespace Sys2Proof

theorem high_append (a b : Byte) : (a ++ b : BitVec 16).extractLsb' 8 8 = a := by
  apply BitVec.eq_of_getLsbD_eq
  intro i hi
  rw [BitVec.getLsbD_extractLsb', BitVec.getLsbD_append]
  simp [hi]

theorem low_append (a b : Byte) : (a ++ b : BitVec 16).extractLsb' 0 8 = b := by
  apply BitVec.eq_of_getLsbD_eq
  intro i hi
  rw [BitVec.getLsbD_extractLsb', BitVec.getLsbD_append]
  simp [hi]

theorem append_high_low (x : Half) : (x.extractLsb' 8 8 ++ x.extractLsb' 0 8 : BitVec 16) = x := by
  apply BitVec.eq_of_getLsbD_eq
  intro i hi
  rw [BitVec.getLsbD_append, BitVec.getLsbD_extractLsb', BitVec.getLsbD_extractLsb']
  split
  · simp [*]
  · rename_i h
    simp [show 8 + (i - 8) = i by omega, show i - 8 < 8 by omega]

/-- Bytes 2 to 7 taken out of a report and put back are the report (30_encoding.md R91). -/
@[simp] theorem reportOf_payloadOf (r : Report) : reportOf r.b0 r.b1 (payloadOf r) = r := by
  simp [reportOf, payloadOf, high_append, low_append]

/-- The operand fields of a report made from operand fields are those fields (30_encoding.md R91). -/
@[simp] theorem payloadOf_reportOf (rid code : Byte) (p : Payload) : payloadOf (reportOf rid code p) = p := by
  simp [reportOf, payloadOf, append_high_low]

/-- On the bytes of a report the decoder selects its command. -/
@[simp] theorem decode_reportBytes (c : Config) (r : Report) :
    decode c (reportBytes r) = .ok (decodeReport c r) := rfl

end Sys2Proof
end

