-- ==== Sys2Proof/Laws/PerInstr.lean ====
section
/-! SUPPORT. Families of facts about every command as syntax, one lemma per constructor. -/

namespace Sys2Proof.Laws.Acceptance

/-- A well-formed command is encoded by a report that carries the report identifier exactly when the
command comes from an accepted report (30_encoding.md R93, R106). -/
def Statement (i : Instr) : Prop :=
  ∀ c : Config, WellFormed c i = true → ((encode c i).b0 = Sys2Proof.Machine.reportId ↔ i.accepted = true)

theorem fade (p : Payload) : Statement (.fade p) := by
  simp [Statement, encode, reportOf, Instr.accepted]

theorem fadeAlias (p : Payload) : Statement (.fadeAlias p) := by
  simp [Statement, encode, reportOf, Instr.accepted]

theorem armReset (p : Payload) : Statement (.armReset p) := by
  simp [Statement, encode, reportOf, Instr.accepted]

theorem version (p : Payload) : Statement (.version p) := by
  simp [Statement, encode, reportOf, Instr.accepted]

theorem readLed (p : Payload) : Statement (.readLed p) := by
  simp [Statement, encode, reportOf, Instr.accepted]

theorem nop (code : Byte) (p : Payload) : Statement (.nop code p) := by
  simp [Statement, encode, reportOf, Instr.accepted]

theorem discard (rid code : Byte) (p : Payload) : Statement (.discard rid code p) := by
  intro c h
  simpa [encode, reportOf, Instr.accepted, WellFormed] using h

end Sys2Proof.Laws.Acceptance
end

