-- ==== Sys2Proof/Laws/Step.lean ====
section
/-! SUPPORT. What each event and each step can do, said once. -/

namespace Sys2Proof.Machine

variable {s t : State}

/-- In a run that has not ended, a step executes the next event. -/
theorem step_event {e : Event} {rest : List Event} (h : s.inputs = e :: rest)
    (hb : s.inBootloader = false) : step s = deliverRunning e (s.withInputs rest) := by
  have hb' : (s.withInputs rest).inBootloader = false := hb
  simp only [step, nextEvent, h, deliver, hb', Bool.false_and, Bool.false_eq_true, if_false]

/-- After a RESTART a step executes a RESET and refuses every other event. -/
theorem step_ended {e : Event} {rest : List Event} (h : s.inputs = e :: rest)
    (hb : s.inBootloader = true) :
    step s = if e = .reset then .next (resetBlock (s.withInputs rest)) else .refused .runEnded := by
  have hb' : (s.withInputs rest).inBootloader = true := hb
  simp only [step, nextEvent, h, deliver, hb', Bool.true_and, bne_iff_ne, ne_eq]
  split
  · simp [*]
  · rename_i he
    rw [if_pos (by simpa using he)]
    simp only [Decidable.not_not] at he
    rw [he]
    rfl

/-- A completion runs the handler while the signal is unmasked, and has no step while it is masked. -/
theorem completion_enabled (s : State) (rest : List Event) (h : s.tx.en = true) :
    deliverRunning .txByteComplete (s.withInputs rest) = .next (txByteComplete (s.withInputs rest)) := by
  simp only [deliverRunning, completion, State.withInputs_tx, h]

theorem completion_masked (s : State) (rest : List Event) (h : s.tx.en = false) :
    deliverRunning .txByteComplete (s.withInputs rest) = .refused .completionMasked := by
  simp only [deliverRunning, completion, State.withInputs_tx, h]

/-- The state a command leaves. Every command completes. -/
def after : Instr → State → State
  | .fade p, s => fadeCommand p (s.withStatus (encode s.cfg (.fade p)))
  | .fadeAlias p, s => fadeCommand p (s.withStatus (encode s.cfg (.fadeAlias p)))
  | .armReset p, s => (s.withStatus (encode s.cfg (.armReset p))).withRstArmed true
  | .version p, s => s.withStatus { encode s.cfg (.version p) with b3 := s.cfg.verHi, b4 := s.cfg.verLo }
  | .readLed p, s => s.withStatus
      { putColour (encode s.cfg (.readLed p)) (readColour (normalise s.ledCount p.dest).toNat s) with
        b5 := 0, b6 := 0, b7 := normalise s.ledCount p.dest }
  | .nop code p, s => s.withStatus (encode s.cfg (.nop code p))
  | .discard _ _ _, s => s

theorem exec_eq_after (i : Instr) (s : State) : exec i s = .next (after i s) := by
  cases i <;> rfl

/-- What a step that answers a next state has done. -/
theorem step_cases (h : step s = .next t) :
    (s.inputs = [] ∧ t = s) ∨
    ∃ e rest, s.inputs = e :: rest ∧
      ((e = .reset ∧ t = resetBlock (s.withInputs rest)) ∨
       (s.inBootloader = false ∧
        ((∃ bytes ms i, e = .setReport bytes ms ∧ decode s.cfg bytes = .ok i ∧
            t = after i ((s.withInputs rest).withInterleave ms)) ∨
         (e = .getReport ∧ t = getReport (s.withInputs rest)) ∨
         (e = .tick ∧ t = tick (s.withInputs rest)) ∨
         (e = .txByteComplete ∧ s.tx.en = true ∧ t = txByteComplete (s.withInputs rest)) ∨
         (e = .restart ∧ s.rstArmed = true ∧ t = (resetBlock (s.withInputs rest)).withInBootloader true)))) := by
  cases hi : s.inputs with
  | nil =>
    simp only [step, nextEvent, hi] at h
    cases h
    exact .inl ⟨rfl, rfl⟩
  | cons e rest =>
    refine .inr ⟨e, rest, rfl, ?_⟩
    cases hb : s.inBootloader with
    | true =>
      rw [step_ended hi hb] at h
      split at h <;> cases h
      exact .inl ⟨‹_›, rfl⟩
    | false =>
      rw [step_event hi hb] at h
      cases e with
      | reset =>
        cases h
        exact .inl ⟨rfl, rfl⟩
      | setReport bytes ms =>
        simp only [deliverRunning, setReport, State.withInputs_cfg] at h
        split at h
        · rw [exec_eq_after] at h
          cases h
          exact .inr ⟨rfl, .inl ⟨_, _, _, rfl, ‹_›, rfl⟩⟩
        · cases h
      | getReport =>
        cases h
        exact .inr ⟨rfl, .inr (.inl ⟨rfl, rfl⟩)⟩
      | tick =>
        cases h
        exact .inr ⟨rfl, .inr (.inr (.inl ⟨rfl, rfl⟩))⟩
      | txByteComplete =>
        cases ht : s.tx.en with
        | false => rw [completion_masked _ rest ht] at h; cases h
        | true =>
          rw [completion_enabled _ rest ht] at h
          cases h
          exact .inr ⟨rfl, .inr (.inr (.inr (.inl ⟨rfl, rfl, rfl⟩)))⟩
      | restart =>
        cases ha : s.rstArmed with
        | false => simp [deliverRunning, restart, ha] at h
        | true =>
          simp only [deliverRunning, restart, State.withInputs_rstArmed, ha] at h
          cases h
          exact .inr ⟨rfl, .inr (.inr (.inr (.inr ⟨rfl, rfl, rfl⟩)))⟩

/-! ### What commands, ticks and steps leave alone -/

/-- Beside the status report, the staging record, the LEDs and `RST_ARMED`, a command leaves everything but the
transmitter and `WIRE`, which only the handler steps inside an immediate set move. -/
theorem after_frame (i : Instr) (s : State) :
    after i s =
      { s with
        leds := (after i s).leds
        stg := (after i s).stg
        status := (after i s).status
        rstArmed := (after i s).rstArmed
        tx := (after i s).tx
        wire := (after i s).wire } := by
  cases i with
  | fade p => simp only [after]; rw [fadeCommand_eq, beginFade_frame]; rfl
  | fadeAlias p => simp only [after]; rw [fadeCommand_eq, beginFade_frame]; rfl
  | _ => rfl

/-- A TICK in full: the overrun mark, the fade pass, the transmitter at the start of a frame. -/
theorem tick_eq (s : State) :
    tick s =
      { s with
        leds := s.leds.map fadeStep
        tx := { s.tx with en := true, src := 0, bits := 0 }
        faultOverrun := s.tx.en || s.faultOverrun } := by
  unfold tick flagOverrun
  split <;> simp_all <;> rfl

/-- A step takes its event off the queue. -/
theorem step_inputs {e : Event} {rest : List Event} (hin : s.inputs = e :: rest) (h : step s = .next t) :
    t.inputs = rest := by
  rcases step_cases h with ⟨hnil, -⟩ | ⟨e', rest', hcons, hh⟩
  · rw [hin] at hnil
    cases hnil
  · rw [hin] at hcons
    cases hcons
    rcases hh with ⟨-, rfl⟩ | ⟨-, ⟨_, _, i, -, -, rfl⟩ | ⟨-, rfl⟩ | ⟨-, rfl⟩ | ⟨-, -, rfl⟩ | ⟨-, -, rfl⟩⟩
    · rfl
    · rw [after_frame]; rfl
    · rfl
    · rw [tick_eq]; rfl
    · simp
    · rfl

end Sys2Proof.Machine
end

