-- ==== Sys2Proof/Tests/Slice0.lean ====
section
/-! SUPPORT. The model's own tests: words and vectors of 95_test_vectors.md, ill-formed terms the checks
refuse, and for each obligation with hypotheses a state and operands that meet them. Expected values are the
spec's; the stand-in parameters are those of its conventions. -/

namespace Sys2Proof.Tests

open Sys2Proof Sys2Proof.Machine

/-! ### Helpers -/

/-- The state after an outcome, if there is one. -/
def next? (o : Host.Outcome State Fault Refusal) : Option State :=
  match o with
  | .next s => some s
  | .fault _ => none
  | .refused _ => none

/-- The reset state with `n` LEDs. -/
def dark (n : Nat) : State := State.resetWith standInConfig n

/-- An LED that shows a colour and is IDLE. -/
def showing (g r b : Byte) : Led := { ledReset with cs := ⟨g, r, b⟩ }

/-- An LED one channel of which is set up to fade from `cur` to `target` in `dur` ticks, as its red. -/
def fading (cur target : Byte) (dur : Half) : Led := rampSetup ⟨0, target, 0⟩ dur (showing 0 cur 0)

/-- A state in which these events come next. -/
def expecting (s : State) (es : List Event) : State := { s with inputs := es }

/-- A frame of two LEDs (0x80, 0x01, 0xFF) and (0x00, 0xA5, 0x3C), just armed (vector X3). -/
def armed : State := txArm { dark 2 with leds := [showing 0x80 0x01 0xFF, showing 0x00 0xA5 0x3C] }

/-! ### WellFormed and Config.valid refuse ill-formed terms -/

theorem test_nop_with_a_command_code_is_ill_formed :
    WellFormed standInConfig (.nop 0x63 ⟨0, 0, 0, 0, 0⟩) = false := by decide

theorem test_discard_with_the_report_identifier_is_ill_formed :
    WellFormed standInConfig (.discard 0x01 0x63 ⟨0, 0, 0, 0, 0⟩) = false := by decide

theorem test_nop_x_is_well_formed : WellFormed standInConfig (.nop 0x78 ⟨0, 0, 0, 0, 0⟩) = true := by
  decide

theorem test_stand_in_config_is_valid : standInConfig.valid = true := by decide

theorem test_equal_codes_are_invalid :
    Config.valid { standInConfig with codeFadeAlias := 0x63 } = false := by decide

theorem test_code_of_another_command_is_invalid :
    Config.valid { standInConfig with codeArmReset := 0x76 } = false := by decide

theorem test_unrecognised_code_is_no_command_code :
    Config.valid { standInConfig with codeArmReset := 0x78 } = false := by decide

theorem test_equal_patterns_are_invalid :
    Config.valid { standInConfig with pat0 := 0xFC } = false := by decide

theorem test_version_letter_is_invalid : Config.valid { standInConfig with verHi := 0x41 } = false := by
  decide

/-! ### Decoding, 95_test_vectors.md section 2.1; each word is written bit by bit from the table's
`encoding` row: identifier, code, red, green, blue, duration high and low, destination -/

theorem test_decode_fade : decodeTableWord 64
    0b0000000101100011000010100001010000011110000000000110010000000101 =
      some (.fade ⟨10, 20, 30, 100, 5⟩) := by decide

theorem test_decode_fade_alias : decodeTableWord 64
    0b0000000101101110000001110000100000001001000000000000000000001000 =
      some (.fadeAlias ⟨7, 8, 9, 0, 8⟩) := by decide

theorem test_decode_arm_reset : decodeTableWord 64
    0b0000000101000111000000000000000000000000000000000000000000000000 =
      some (.armReset ⟨0, 0, 0, 0, 0⟩) := by decide

theorem test_decode_version : decodeTableWord 64
    0b0000000101110110000000000000000000000000000000000000000000000000 =
      some (.version ⟨0, 0, 0, 0, 0⟩) := by decide

theorem test_decode_read_led : decodeTableWord 64
    0b0000000101110010000000000000000000000000000000000000000011001000 =
      some (.readLed ⟨0, 0, 0, 0, 200⟩) := by decide

theorem test_decode_nop : decodeTableWord 64
    0b0000000101111000000100010010001000110011010001000101010101100110 =
      some (.nop 0x78 ⟨0x11, 0x22, 0x33, 0x4455, 0x66⟩) := by decide

theorem test_decode_discard : decodeTableWord 64
    0b0000000001100011000010100001010000011110000000000110010000000101 =
      some (.discard 0x00 0x63 ⟨10, 20, 30, 100, 5⟩) := by decide

theorem test_codes_are_compared_exactly : decodeTableWord 64 0x01430A141E006405 =
    some (.nop 0x43 ⟨10, 20, 30, 100, 5⟩) := by decide

theorem test_seven_bytes_are_no_report :
    decode standInConfig [1, 0x63, 0, 0, 0, 0, 0] = .error .notEightBytes := by rfl

theorem test_encode_fade : encode standInConfig (.fade ⟨255, 0, 128, 4660, 0⟩) =
    ⟨0x01, 0x63, 0xFF, 0x00, 0x80, 0x12, 0x34, 0x00⟩ := by decide

/-! ### BEGIN_FADE, 95_test_vectors.md section 2.2 -/

theorem test_increment_B1 : increment 255 0 1 = 0xFF01 := by decide

theorem test_increment_B8_loses_bit_0 : increment 200 0 1000 = 0x0033 := by decide

theorem test_increment_B9_falls : increment 0 100 3 = 0x2154 := by decide

theorem test_increment_B11_at_target : increment 7 7 3 = 0x0000 := by decide

theorem test_increment_B12_longest : increment 255 0 65535 = 0x0001 := by decide

/-! ### TICK, 95_test_vectors.md section 2.3 -/

theorem test_tick_T3 : ((fadeStep (fading 0 255 4)).cs.r, (fadeStep (fading 0 255 4)).frac.r) =
    (63, 0xC0) := by decide

theorem test_tick_T4 : ((fadeStep (fadeStep (fading 100 0 3))).cs.r,
    (fadeStep (fadeStep (fading 100 0 3))).frac.r) = (34, 0xA8) := by decide

theorem test_tick_T13_snaps : (fadeStep (fading 0 255 1)).cs.r = 255 := by decide

theorem test_tick_T8_counts_down : (fadeStep (fading 7 7 3)).rem = 2 := by decide

/-- T15: an IDLE LED with junk in its FadeTarget. -/
def idleT15 : Led :=
  { showing 9 9 9 with inc := ⟨0xFFFF, 0xFFFF, 0xFFFF⟩, frac := ⟨0xFF, 0xFF, 0xFF⟩ }

theorem test_tick_T15_idle : fadeStep idleT15 = idleT15 := by decide

theorem test_tick_arms_the_transmitter :
    (tick (dark 2)).tx = { en := true, src := 0, cur := 0, bits := 0 } := by decide

theorem test_overrun_X7 : (tick (txByteComplete armed)).faultOverrun = true := by decide

/-! ### The transmitter, 95_test_vectors.md section 2.4 -/

/-- X1, step 0: 0x80 is loaded and its bit 7 is sent. -/
theorem test_first_completion_X1 : (txByteComplete armed).tx = ⟨true, 1, 0x00, 7⟩ ∧
    (txByteComplete armed).wire = [0xFC] := by decide

/-- X1, step 8: 0x01 is loaded and its bit 7 is sent. -/
theorem test_second_load_X1 : (txByteComplete^[9] armed).tx = ⟨true, 2, 0x02, 7⟩ := by decide

/-- X1, the last step of a frame of one LED. -/
theorem test_last_completion_X1 :
    txByteComplete { dark 1 with tx := ⟨true, 3, 0, 0⟩ } = { dark 1 with tx := ⟨false, 3, 0, 0⟩ } := by
  decide

theorem test_csbyte_order : [0, 1, 2, 3, 4, 5].map armed.csByte =
    [0x80, 0x01, 0xFF, 0x00, 0xA5, 0x3C] := by decide

/-! ### The commands, 95_test_vectors.md section 2.5 -/

/-- K5: the staging record and the ramp of LED 3. -/
theorem test_fade_K5 : (next? (exec (.fade ⟨1, 2, 3, 9, 3⟩) (dark 8))).map (fun t => (t.stg, t.leds[2]?)) =
    some (⟨⟨2, 1, 3⟩, 9, 3⟩, some { ledReset with
      tgt := ⟨2, 1, 3⟩, rem := 9, inc := ⟨0x0039, 0x001D, 0x0055⟩ }) := by decide

/-- K8: a raw index out of range is a broadcast, and is echoed raw. -/
theorem test_fade_K8 : (next? (exec (.fade ⟨7, 8, 9, 4660, 200⟩) (dark 8))).map
    (fun t => (t.stg.dest, t.status.b7, t.leds.map (·.rem))) =
    some (0, 200, List.replicate 8 4660) := by decide

/-- S2 with the alias: an immediate set of LED 2. -/
theorem test_immediate_alias : (next? (exec (.fadeAlias ⟨1, 2, 3, 0, 2⟩) (dark 8))).map
    (fun t => (t.leds[1]?, t.status.b1)) = some (some (showing 2 1 3), 0x6E) := by decide

/-- R121's example: an immediate set cancels a ramp. -/
theorem test_immediate_cancels_ramp : setNow ⟨1, 2, 3⟩ { showing 9 9 9 with rem := 40 } = showing 1 2 3 := by
  decide

/-- K9. -/
theorem test_arm_reset_K9 : (next? (exec (.armReset ⟨0, 0, 0, 0, 0⟩) (dark 8))).map
    (fun t => (t.status, t.rstArmed)) = some (⟨1, 0x47, 0, 0, 0, 0, 0, 0⟩, true) := by decide

/-- K4. -/
theorem test_version_K4 : (next? (exec (.version ⟨0xAA, 0xBB, 0xCC, 0xDDEE, 0xFF⟩) (dark 8))).map
    (·.status) = some ⟨0x01, 0x76, 0xAA, 0x31, 0x30, 0xDD, 0xEE, 0xFF⟩ := by decide

/-- P1's last command: R=10, G=20, B=30 from an LED that shows (g 20, r 10, b 30). -/
theorem test_read_led_P1 : (next? (exec (.readLed ⟨0xAA, 0xBB, 0xCC, 0xDDEE, 2⟩)
    { dark 2 with leds := [ledReset, showing 20 10 30] })).map (·.status) =
    some ⟨0x01, 0x72, 0x0A, 0x14, 0x1E, 0, 0, 2⟩ := by decide

/-- K6: index 200 of 8 LEDs answers with the staging colour. -/
theorem test_read_led_K6 : (next? (exec (.readLed ⟨0, 0, 0, 0, 200⟩)
    { dark 8 with stg := ⟨⟨2, 1, 3⟩, 9, 3⟩ })).map (·.status) =
    some ⟨0x01, 0x72, 0x01, 0x02, 0x03, 0, 0, 0⟩ := by decide

/-- K3, on the step. -/
theorem test_nop_K3 : (next? (step (State.reset.withFetchWord 64 0x0178112233445566))).map (·.status) =
    some ⟨0x01, 0x78, 0x11, 0x22, 0x33, 0x44, 0x55, 0x66⟩ := by decide

/-- K2, on the step: a discarded report changes nothing. -/
theorem test_discard_K2 : next? (step (State.reset.withFetchWord 64 0x0272000000000005)) =
    some State.reset := by decide

/-! ### Interleaving, 20_memory.md R77 -/

/-- The chosen order decides what the handler sees: here it loads offset 0 after that byte is written. -/
theorem test_handler_sees_new_byte : (next? (exec (.fade ⟨0, 0xFF, 0, 0, 1⟩)
    { txArm (dark 1) with interleave := [.write 0, .handler] })).map (·.wire) = some [0xFC] := by decide

/-- And here before. -/
theorem test_handler_sees_old_byte : (next? (exec (.fade ⟨0, 0xFF, 0, 0, 1⟩)
    { txArm (dark 1) with interleave := [.handler, .write 0] })).map (·.wire) = some [0xC0] := by decide

/-! ### Events, 95_test_vectors.md section 2.6 -/

/-- Z3 and Z4. -/
theorem test_restart_Z3 : next? (step (expecting { dark 8 with rstArmed := true } [.restart])) =
    some { dark 8 with inBootloader := true } := by decide

theorem test_restart_Z4 : step (expecting (dark 8) [.restart]) = .refused .restartNotArmed := by rfl

theorem test_get_K1 : (next? (step (expecting (dark 8) [.getReport]))).map (·.replies) =
    some [⟨0, 0, 0, 0, 0, 0, 0, 0⟩] := by decide

theorem test_no_report_of_nine_bytes :
    step (expecting (dark 1) [.setReport [1, 0x76, 0, 0, 0, 0, 0, 0, 0] []]) =
      .refused .reportNotEightBytes := by rfl

/-- R271: a completion while `TX_EN = 0` has no step. -/
theorem test_completion_while_masked :
    step (expecting (dark 1) [.txByteComplete]) = .refused .completionMasked := by rfl

/-- R260 with a handler step inside a command: one LED, a TICK, an immediate set with one handler step inside,
the other 24 completions, a TICK. One completion fewer and the second TICK comes too soon. -/
def drained (completions : Nat) : List Event :=
  .tick :: .setReport (reportBytes ⟨1, 0x63, 9, 8, 7, 0, 0, 1⟩) [.write 0, .handler] ::
    (List.replicate completions .txByteComplete ++ [.tick])

theorem test_handler_step_inside_a_command_drains :
    DrainBeforeTick standInConfig 1 0 (drained 24) = true ∧
    DrainBeforeTick standInConfig 1 0 (drained 23) = false := by decide

/-! ### Witnesses: for each obligation with hypotheses, a state and operands that meet all of them -/

/-- A mid-fade, mid-frame state of two LEDs, one rising, one falling. -/
def busy : State :=
  txByteComplete { txArm (dark 2) with leds := [fadeStep (fading 0 255 4), fading 100 0 3] }

/-- A rising and a falling LED, mid-fade, and one on its last tick. -/
theorem witness_LedOnCourse : LedOnCourse (fadeStep (fading 0 255 4)) ∧ LedOnCourse (fading 100 0 3) ∧
    LedOnCourse (fading 7 7 1) ∧ (fading 100 0 3).rem ≠ 0 ∧
    direction ((fading 0 255 4).inc.get .r) = true ∧ direction ((fading 100 0 3).inc.get .r) = false := by
  decide

theorem witness_Inv : busy.Inv ∧ busy.tx.en = true ∧ busy.tx.bits ≠ 0 := by decide

theorem witness_DecodeOfEncodedCommandIsTheCommand : standInConfig.valid = true ∧
    WellFormed standInConfig (.fade ⟨1, 2, 3, 65535, 255⟩) = true ∧
    WellFormed standInConfig (.nop 0xFF ⟨1, 2, 3, 4, 5⟩) = true ∧
    WellFormed standInConfig (.discard 0x00 0x63 ⟨1, 2, 3, 4, 5⟩) = true := by decide

theorem witness_OnlyEightByteTransfersAreReports :
    decode standInConfig [] = .error .notEightBytes ∧
    decode standInConfig (reportBytes ⟨1, 2, 3, 4, 5, 6, 7, 8⟩) ≠ .error .notEightBytes :=
  ⟨rfl, nofun⟩

theorem witness_DurationAndDestinationOperands :
    (payloadOf ⟨1, 0x63, 0, 0, 0, 0x12, 0x34, 0⟩).dur.toNat = 4660 ∧ normalise 8 8 = 8 ∧ normalise 8 9 = 0 ∧
    normalise 255 255 = 255 := by decide

/-- A SET_REPORT that decodes, to a FADE, a VERSION and a READ_LED. -/
def reporting (r : Report) : State := expecting busy [.setReport (reportBytes r) [.handler], .tick]

theorem witness_StepRunsTheDecodedCommand :
    (reporting ⟨1, 0x63, 1, 2, 3, 0, 9, 3⟩).inputs =
      [.setReport (reportBytes ⟨1, 0x63, 1, 2, 3, 0, 9, 3⟩) [.handler], .tick] ∧
    (reporting ⟨1, 0x63, 1, 2, 3, 0, 9, 3⟩).inBootloader = false ∧
    decode (reporting ⟨1, 0x63, 1, 2, 3, 0, 9, 3⟩).cfg (reportBytes ⟨1, 0x63, 1, 2, 3, 0, 9, 3⟩) =
      .ok (.fade ⟨1, 2, 3, 9, 3⟩) ∧
    WellFormed standInConfig (.fade ⟨1, 2, 3, 9, 3⟩) = true := ⟨rfl, rfl, rfl, rfl⟩

theorem witness_BlockWaitsForAnEvent : busy.inputs = [] := by decide

theorem witness_AcceptedReportIsEchoed :
    (reporting ⟨1, 0x76, 1, 2, 3, 0, 9, 3⟩).inBootloader = false ∧
    (reporting ⟨1, 0x76, 1, 2, 3, 0, 9, 3⟩).cfg.valid = true ∧
    (next? (step (reporting ⟨1, 0x63, 1, 2, 3, 0, 9, 3⟩))).map (·.status) =
      some ⟨1, 0x63, 1, 2, 3, 0, 9, 3⟩ ∧
    (next? (step (reporting ⟨1, 0x76, 1, 2, 3, 0, 9, 3⟩))).map (·.status) =
      some ⟨1, 0x76, 1, 0x31, 0x30, 0, 9, 3⟩ ∧
    (next? (step (reporting ⟨1, 0x72, 1, 2, 3, 0, 9, 3⟩))).map (·.status.b1) = some 0x72 := by decide

/-- A FADE with a duration to LED 1, one at the boundary LED 2, one just above it (a broadcast). -/
theorem witness_FadeWithDurationSetsUpTheRamp : (9 : Half) ≠ 0 ∧
    [1, 2, 3].map (fun d => (next? (exec (.fade ⟨1, 2, 3, 9, d⟩) busy)).map (·.leds.map (·.rem))) =
      [some [9, 3], some [3, 9], some [9, 9]] := by decide

/-- An immediate set while idle, and one while streaming with no handler step inside. -/
theorem witness_FadeWithDurationZeroSetsTheColourNow : (dark 2).tx.en = false ∧ busy.tx.en = true ∧
    Micro.handler ∉ busy.interleave ∧
    [1, 2, 3].map (fun d => (next? (exec (.fadeAlias ⟨1, 2, 3, 0, d⟩) busy)).map (·.leds.map (·.rem))) =
      [some [0, 3], some [3, 0], some [0, 0]] := by decide

/-- Of the last byte of two LEDs: old before its write, new after. -/
theorem witness_BytesDuringAnImmediateSetAreOldOrNew : 5 < 3 * busy.ledCount ∧ (2 : Nat) = ledOfOffset 5 ∧
    (microRun 2 ⟨1, 2, 3⟩ busy [.write 4]).csByte 5 = busy.csByte 5 ∧
    (microRun 2 ⟨1, 2, 3⟩ busy [.write 4, .handler, .write 5]).csByte 5 = 3 := by decide

theorem witness_ReadLedReportsTheLiveColour : (2 : Byte).toNat ≤ busy.ledCount ∧
    busy.leds[(2 : Byte).toNat - 1]? = some (fading 100 0 3) ∧
    busy.leds[(1 : Byte).toNat - 1]? = some (fadeStep (fading 0 255 4)) := by decide

theorem witness_ReadLedOfIndexZero : (0 : Byte).toNat = 0 ∧ (3 : Byte).toNat > busy.ledCount := by decide

theorem witness_UnrecognisedCommandIsOnlyEchoed : WellFormed busy.cfg (.nop 0x00 ⟨0, 0, 0, 0, 0⟩) = true := by
  decide

theorem witness_WrongIdentifierIsDiscarded :
    (reporting ⟨0, 0x47, 1, 2, 3, 0, 9, 3⟩).inBootloader = false ∧ (0x00 : Byte) ≠ 0x01 ∧
    (0xFF : Byte) ≠ 0x01 := by decide

theorem witness_WhatNoCommandDoes : Micro.handler ∉ busy.interleave ∧ (dark 2).tx.en = false ∧
    (next? (exec (.armReset ⟨0, 0, 0, 0, 0⟩) busy)).map (·.rstArmed) = some true ∧
    (next? (exec (.nop 0 ⟨0, 0, 0, 0, 0⟩) busy)).map (·.rstArmed) = some false ∧
    (next? (exec (.fade ⟨1, 2, 3, 0, 1⟩) { busy with interleave := [.handler] })).isSome := by decide

theorem witness_IncrementIsTheQuotient : (1 : Half) ≠ 0 ∧ (65535 : Half) ≠ 0 ∧
    expectedIncrement 255 0 1 = 0xFF01 ∧ expectedIncrement 255 0 65535 = 1 := by decide

theorem witness_ticks : ledReset.rem = 0 ∧ (fading 0 255 1).rem.toNat = 1 ∧ (fading 0 255 2).rem.toNat = 2 ∧
    (fading 0 255 2).rem ≠ 0 ∧ (1 : Nat) < (2 : Half).toNat := by decide

/-- A two-tick fade of LED 1 of two, from idle, drained between its ticks: an immediate set of LED 2 with a
handler step inside, the other 48 completions and a status read. -/
def fadeOfLed1 : List Event :=
  .tick :: .setReport (reportBytes ⟨1, 0x63, 1, 2, 3, 0, 0, 2⟩) [.handler, .write 3] ::
    (List.replicate 48 .txByteComplete ++ [.getReport, .tick])

/-- The report that asks for it. -/
def askLed1 : Event := .setReport (reportBytes ⟨1, 0x63, 9, 8, 7, 0, 2, 1⟩) []

theorem witness_CommandedFadeArrives :
    (dark 2).Inv ∧ (dark 2).faultOverrun = false ∧ (0x63 : Byte) = (dark 2).cfg.codeFade ∧
    (2 : Byte) ≠ 0 ∧ (dark 2).leds[0]? = some ledReset ∧
    fadeOfLed1.all (LeavesFade (dark 2).cfg (dark 2).ledCount 1) = true ∧
    fadeOfLed1.count .tick = (0 : Byte).toNat * 256 + (2 : Byte).toNat ∧
    DrainBeforeTick (dark 2).cfg (dark 2).ledCount (completionsOwed (dark 2)) (askLed1 :: fadeOfLed1) = true ∧
    (next? (Host.Core.run core (fadeOfLed1.length + 1) (expecting (dark 2) (askLed1 :: fadeOfLed1)))).isSome =
      true := by decide

/-- The other branch: LED 2 during a one-tick fade of LED 1. -/
theorem witness_CommandedFadeLeavesOthers :
    (dark 2).leds[1]? = some ledReset ∧ LeavesFade (dark 2).cfg (dark 2).ledCount 2 .tick = true ∧
    ¬((1 : Byte).toNat = 0 ∨ (1 : Byte).toNat > (dark 2).ledCount ∨ (1 : Byte).toNat = 1 + 1) := by decide

/-- A fade with a duration, an immediate set while streaming with no handler step inside, one with, and two
states that show the same colours. -/
theorem witness_ANewFadeForgetsTheOldOne :
    (9 : Half) ≠ 0 ∧ Micro.handler ∉ busy.interleave ∧ (dark 2).tx.en = false ∧
    (next? (exec (.fade ⟨1, 2, 3, 0, 1⟩) { busy with interleave := [.handler] })).isSome ∧
    Selects busy.ledCount 1 1 = true ∧ Selects busy.ledCount 0 2 = true ∧ Selects busy.ledCount 3 2 = true ∧
    busy.leds.map (·.cs) = (busy.leds.map fun l => { l with rem := 0, tgt := ⟨1, 1, 1⟩ }).map (·.cs) := by
  decide

theorem witness_TickAdvancesEveryLed : (expecting (dark 2) [.tick]).inputs = [.tick] ∧
    (expecting (dark 2) [.tick]).inBootloader = false ∧ (expecting (dark 2) [.tick]).tx.en = false := by
  decide

theorem witness_TickWhileStreaming : (expecting busy [.tick]).inputs = [.tick] ∧
    (expecting busy [.tick]).inBootloader = false ∧ (expecting busy [.tick]).tx.en = true := by decide

/-- A state for each of the four cases of the completion handler. -/
theorem witness_CompletionHandlerCases : (dark 2).tx.en = false ∧
    ({ dark 1 with tx := ⟨true, 3, 0, 0⟩ } : State).tx.src.toNat = 3 * (dark 1).ledCount ∧
    busy.tx.en = true ∧ busy.tx.bits ≠ 0 ∧
    armed.tx.en = true ∧ armed.tx.bits = 0 ∧ armed.tx.src.toNat < 3 * armed.ledCount := by decide

/-- Unmasked and masked. -/
theorem witness_CompletionEventRunsTheHandler :
    (expecting busy [.txByteComplete]).inputs = [.txByteComplete] ∧
    (expecting busy [.txByteComplete]).inBootloader = false ∧ busy.tx.en = true ∧
    (expecting (dark 2) [.txByteComplete]).inBootloader = false ∧ (dark 2).tx.en = false := by decide

theorem witness_UndisturbedFrame :
    (expecting (dark 1) (.tick :: List.replicate 25 .txByteComplete)).inputs =
      .tick :: (List.replicate (24 * (dark 1).ledCount + 1) .txByteComplete ++ []) ∧
    (dark 1).tx.en = false ∧ (dark 1).ledCount ≤ 255 := by decide

theorem witness_FrameLengthSurvives : (expecting busy [.txByteComplete]).Inv ∧
    (next? (step (expecting busy [.txByteComplete]))).isSome ∧ KeepsFrame .txByteComplete = true ∧
    (expecting (dark 2) [.tick]).Inv ∧ (next? (step (expecting (dark 2) [.tick]))).isSome := by decide

theorem witness_events : IsReset .tick = false ∧ IsReset .getReport = false ∧
    (next? (step (expecting busy [.getReport]))).isSome ∧
    (expecting busy [.getReport]).inBootloader = false ∧
    (expecting { busy with inBootloader := true } [.reset]).inputs = [.reset] := by decide

theorem witness_Restart : (expecting busy [.restart]).inBootloader = false ∧ busy.rstArmed = false ∧
    (expecting { busy with rstArmed := true } [.restart, .tick]).rstArmed = true ∧
    (next? (step (expecting { busy with rstArmed := true } [.restart, .tick]))).isSome := by decide

theorem witness_StickyBits :
    (next? (step (expecting { busy with rstArmed := true, faultOverrun := true } [.getReport]))).isSome ∧
    (next? (step (reporting ⟨1, 0x47, 0, 0, 0, 0, 0, 0⟩))).map (·.rstArmed) = some true ∧
    (next? (step (expecting busy [.tick]))).map (·.faultOverrun) = some true := by decide

theorem witness_ResetStateMeetsTheInvariant : standInConfig.valid = true ∧ State.reset.Inv ∧
    (State.resetWith standInConfig 1).Inv := by decide

/-- Two ticks with a whole frame between them, one of its handler steps inside a command. -/
theorem witness_NoOverrunUnderDrainBeforeTick : (dark 1).Inv ∧ (dark 1).faultOverrun = false ∧
    DrainBeforeTick (dark 1).cfg (dark 1).ledCount (completionsOwed (dark 1)) (drained 24) = true := by decide

/-- Events that are all taken, for which the premise holds, and for which it does not. -/
theorem witness_DrainBeforeTickMeans : (dark 1).Inv ∧
    (next? (Host.Core.run core (drained 24).length (expecting (dark 1) (drained 24)))).isSome = true ∧
    (next? (Host.Core.run core (drained 23).length (expecting (dark 1) (drained 23)))).isSome = true := by decide

/-- A run, and events that are not: a completion while masked, and one after the run has ended. -/
theorem witness_Runs :
    (expecting busy [.reset, .tick, .txByteComplete]).inputs.head? = some .reset ∧
    (next? (Host.Core.run core 3 (expecting busy [.reset, .tick, .txByteComplete]))).isSome = true ∧
    Enabled (dark 1) .txByteComplete = false ∧ Enabled busy .txByteComplete = true ∧
    Enabled { dark 1 with inBootloader := true } .tick = false ∧ Enabled (dark 1) .restart = false ∧
    Enabled (dark 1) (.setReport [1] []) = false ∧
    Enabled (dark 1) (.setReport (reportBytes ⟨2, 0, 0, 0, 0, 0, 0, 0⟩) []) = true := by decide

/-- Two states that show the same colours, one mid-fade and one idle. -/
theorem witness_FadeStateIsInvisible :
    ({ expecting (dark 1) [.getReport] with leds := [fading 0 255 9] } : State).leds.map (·.cs) =
      (expecting (dark 1) [.getReport]).leds.map (·.cs) ∧
    ({ expecting (dark 1) [.getReport] with leds := [fading 0 255 9] } : State) ≠
      expecting (dark 1) [.getReport] := by decide

end Sys2Proof.Tests
end

section
/-! PROOFS. One LED's fade over many ticks (41_fade_tick.md R141 to R151): an LED on course stays on course, a
tick moves a channel towards its target and never past it, and a fade of `D` ticks arrives in exactly `D`. -/

namespace Sys2Proof.Machine

/-! ### One channel, in units of 1/256 of a channel step -/

section Channel

variable {rem rem' inc : Half} {frac cur target : Byte}

/-- A ramp step up that does not wrap adds the rate to the channel's fixed-point value. -/
theorem ramp_up_fixedPoint (hd : direction inc = true)
    (hw : cur.toNat * 256 + frac.toNat + (magnitude inc).toNat < 65536) :
    (rampValue inc frac cur).toNat * 256 + (rampFrac inc frac).toNat =
      cur.toNat * 256 + frac.toNat + (magnitude inc).toNat := by
  rw [magnitude_toNat] at hw ⊢
  rw [rampValue_toNat, rampFrac_toNat, rampSum_toNat, if_pos hd]
  omega

/-- A ramp step down that does not wrap takes the rate off the channel's fixed-point value, whose fraction
counts downwards. -/
theorem ramp_down_fixedPoint (hd : direction inc = false)
    (hw : frac.toNat + (magnitude inc).toNat ≤ cur.toNat * 256) :
    (rampValue inc frac cur).toNat * 256 + frac.toNat + (magnitude inc).toNat =
      cur.toNat * 256 + (rampFrac inc frac).toNat := by
  have := cur.isLt
  rw [magnitude_toNat] at hw ⊢
  rw [rampValue_toNat, rampFrac_toNat, rampSum_toNat, hd, if_neg Bool.false_ne_true]
  omega

/-- The channel value moves from `now` to `next` in the direction of its increment, if at all, and not past
`target` (41_fade_tick.md R149, R151). -/
def MovesTowards (inc : Half) (now next target : Byte) : Prop :=
  if direction inc then now.toNat ≤ next.toNat ∧ next.toNat ≤ target.toNat
  else target.toNat ≤ next.toNat ∧ next.toNat ≤ now.toNat

/-- A final tick, which puts the target in place, moves a channel that is on course towards it. -/
theorem ChannelOnCourse.movesTowards_target (h : ChannelOnCourse rem inc frac cur target) :
    MovesTowards inc cur target target := by
  unfold ChannelOnCourse at h
  unfold MovesTowards
  split at h
  · rw [if_pos ‹_›]
    omega
  · rw [if_neg ‹_›]
    rcases h with h | ⟨_, _, rfl⟩ <;> omega

/-- The first of the ticks still to come before the final one moves a channel by its rate `m`. -/
theorem rate_mul_split (m : Nat) (hr : 2 ≤ rem.toNat) (hr' : rem'.toNat = rem.toNat - 1) :
    m * (rem.toNat - 1) = m + m * (rem'.toNat - 1) := by
  rw [← mul_one_add]
  congr 1
  omega

/-- A ramp step that is not the final tick keeps a channel on course and moves it towards its target. -/
theorem ChannelOnCourse.ramp (h : ChannelOnCourse rem inc frac cur target) (hr : 2 ≤ rem.toNat)
    (hr' : rem'.toNat = rem.toNat - 1) :
    ChannelOnCourse rem' inc (rampFrac inc frac) (rampValue inc frac cur) target ∧
      MovesTowards inc cur (rampValue inc frac cur) target := by
  have hsplit := rate_mul_split (magnitude inc).toNat hr hr'
  unfold ChannelOnCourse at h ⊢
  unfold MovesTowards
  cases hd : direction inc
  case true =>
    simp only [hd, if_true] at h ⊢
    have hstep := ramp_up_fixedPoint (frac := frac) (cur := cur) hd (by omega)
    omega
  case false =>
    simp only [hd, Bool.false_eq_true, if_false] at h ⊢
    have hstep := ramp_down_fixedPoint (frac := frac) (cur := cur) hd (by omega)
    rcases h with hway | ⟨hrate, hfrac, hcur⟩
    · omega
    · have hstill : rampValue inc frac cur = cur := BitVec.eq_of_toNat_eq (by omega)
      exact ⟨.inr ⟨hrate, by omega, hstill.trans hcur⟩, by rw [hstill, hcur], by rw [hstill]⟩

end Channel

/-! ### The increment of a new fade -/

section Increment

variable {target cur : Byte} {dur : Half}

theorem increment_toNat (target cur : Byte) (dur : Half) :
    (increment target cur dur).toNat =
      distance target cur * 256 / dur.toNat / 2 * 2 + (if cur.toNat < target.toNat then 1 else 0) := by
  simp [increment, packIncrement_toNat, Nat.mod_eq_of_lt (quotient_lt target cur dur)]

/-- A new fade goes up exactly when the target is above the current value (40_begin_fade.md R124). -/
theorem direction_increment :
    direction (increment target cur dur) = decide (cur.toNat < target.toNat) := by
  rw [direction_eq, increment_toNat]
  split <;> simp_all

/-- The rate of a new fade is its quotient with bit 0 cleared (40_begin_fade.md R126). -/
theorem magnitude_increment :
    (magnitude (increment target cur dur)).toNat = distance target cur * 256 / dur.toNat / 2 * 2 := by
  rw [magnitude_toNat, increment_toNat]
  split <;> omega

/-- A channel that is at its target gets increment 0 (41_fade_tick.md R151). -/
theorem increment_self : increment target target dur = 0 :=
  BitVec.eq_of_toNat_eq (by simp [increment_toNat, distance_eq])

/-- The ticks before the final one take a new fade less than the whole distance. -/
theorem rate_mul_lt_distance (hdist : 0 < distance target cur) (hdur : dur ≠ 0) :
    (magnitude (increment target cur dur)).toNat * (dur.toNat - 1) < distance target cur * 256 := by
  have hpos : 0 < dur.toNat := Nat.pos_of_ne_zero (BitVec.toNat_ne.1 hdur)
  have hall : (magnitude (increment target cur dur)).toNat * dur.toNat ≤ distance target cur * 256 := by
    rw [magnitude_increment]
    exact (Nat.mul_le_mul_right _ (Nat.div_mul_le_self _ 2)).trans (Nat.div_mul_le_self _ _)
  rcases Nat.eq_zero_or_pos (magnitude (increment target cur dur)).toNat with h₀ | h₀
  · rw [h₀]
    omega
  · exact (Nat.mul_lt_mul_of_pos_left (by omega) h₀).trans_le hall

/-- Every channel of a new fade is on course. -/
theorem channelOnCourse_increment (hdur : dur ≠ 0) :
    ChannelOnCourse dur (increment target cur dur) 0 cur target := by
  have hway := rate_mul_lt_distance (target := target) (cur := cur) (dur := dur)
  have hdist := distance_eq target cur
  have hfrac : (0 : Byte).toNat = 0 := rfl
  unfold ChannelOnCourse
  rw [direction_increment]
  rcases Nat.lt_trichotomy cur.toNat target.toNat with hlt | heq | hgt
  · have := hway (by omega) hdur
    simp only [hlt, decide_true, if_true]
    omega
  · obtain rfl : cur = target := BitVec.eq_of_toNat_eq heq
    simp [increment_self, magnitude]
  · have := hway (by omega) hdur
    simp only [Nat.lt_asymm hgt, decide_false, Bool.false_eq_true, if_false]
    omega

end Increment

/-! ### One LED -/

theorem ledOnCourse_iff (l : Led) : LedOnCourse l ↔ l.rem = 0 ∨
    ∀ c, ChannelOnCourse l.rem (l.inc.get c) (l.frac.get c) (l.cs.get c) (l.tgt.get c) := by
  refine or_congr_right ⟨fun ⟨hg, hr, hb⟩ c => ?_, fun h => ⟨h .g, h .r, h .b⟩⟩
  cases c
  exacts [hg, hr, hb]

/-- A tick counts a RAMPING LED's remaining ticks down, and leaves an IDLE one's at 0. -/
theorem fadeStep_rem_toNat (l : Led) : (fadeStep l).rem.toNat = l.rem.toNat - 1 := by
  rcases fadeStep_cases l with ⟨hr, h⟩ | ⟨hr, h⟩ | ⟨hr, h⟩ <;> rw [h]
  · simp [hr]
  · exact countDown_toNat fun e => by simp [e] at hr
  · exact countDown_toNat fun e => by simp [e] at hr

/-- The final tick puts the stored target in place (41_fade_tick.md R143). -/
theorem fadeStep_cs_of_final {l : Led} (hr : l.rem.toNat = 1) : (fadeStep l).cs = l.tgt := by
  rcases fadeStep_cases l with ⟨h₀, _⟩ | ⟨_, h⟩ | ⟨h₂, _⟩
  · simp [h₀] at hr
  · rw [h]
    rfl
  · omega

/-- A tick that is not the final one ramps each channel (41_fade_tick.md R144 to R146). -/
theorem fadeStep_get_of_ramp {l : Led} (hr : 2 ≤ l.rem.toNat) (c : Channel) :
    (fadeStep l).cs.get c = rampValue (l.inc.get c) (l.frac.get c) (l.cs.get c) ∧
      (fadeStep l).frac.get c = rampFrac (l.inc.get c) (l.frac.get c) := by
  rcases fadeStep_cases l with ⟨h₀, _⟩ | ⟨h₁, _⟩ | ⟨_, h⟩
  · simp [h₀] at hr
  · omega
  · rw [h]
    exact ⟨PerChannel.get_of _ c, PerChannel.get_of _ c⟩

/-- A tick keeps an LED on course, and moves each channel of a RAMPING one towards its target
(41_fade_tick.md R149). -/
theorem fadeStep_onCourse {l : Led} (h : LedOnCourse l) :
    LedOnCourse (fadeStep l) ∧
      (l.rem ≠ 0 → ∀ c, MovesTowards (l.inc.get c) (l.cs.get c) ((fadeStep l).cs.get c) (l.tgt.get c)) := by
  obtain ⟨hinc, htgt⟩ := fadeStep_inc_tgt l
  have hrem := fadeStep_rem_toNat l
  rcases (ledOnCourse_iff l).1 h with h₀ | hc
  · exact ⟨.inl (BitVec.eq_of_toNat_eq (by simp [hrem, h₀])), fun hr => absurd h₀ hr⟩
  rcases Nat.lt_or_ge l.rem.toNat 2 with hlast | hramp
  · refine ⟨.inl (BitVec.eq_of_toNat_eq (by rw [hrem]; simp; omega)), fun hr c => ?_⟩
    have h₀ : l.rem.toNat ≠ 0 := BitVec.toNat_ne.1 hr
    rw [fadeStep_cs_of_final (by omega)]
    exact (hc c).movesTowards_target
  · have hstep := fun c => (hc c).ramp hramp hrem
    refine ⟨(ledOnCourse_iff _).2 (.inr fun c => ?_), fun _ c => ?_⟩ <;>
      obtain ⟨hcs, hfrac⟩ := fadeStep_get_of_ramp hramp c
    · rw [hinc, htgt, hcs, hfrac]
      exact (hstep c).1
    · rw [hcs]
      exact (hstep c).2

/-! ### A whole fade -/

section Fade

variable {l : Led} {target : Colour} {dur : Half}

theorem fadeStep_iterate_rem_toNat (l : Led) (k : Nat) :
    (fadeStep^[k] l).rem.toNat = l.rem.toNat - k := by
  induction k with
  | zero => rfl
  | succ k ih => rw [Function.iterate_succ_apply', fadeStep_rem_toNat, ih, Nat.sub_sub]

theorem fadeStep_iterate_inc_tgt (l : Led) (k : Nat) :
    (fadeStep^[k] l).inc = l.inc ∧ (fadeStep^[k] l).tgt = l.tgt := by
  induction k with
  | zero => exact ⟨rfl, rfl⟩
  | succ k ih =>
    rw [Function.iterate_succ_apply', (fadeStep_inc_tgt _).1, (fadeStep_inc_tgt _).2]
    exact ih

theorem fadeStep_iterate_onCourse (h : LedOnCourse l) (k : Nat) : LedOnCourse (fadeStep^[k] l) :=
  Function.Iterate.rec LedOnCourse h (fun _ h => (fadeStep_onCourse h).1) k

theorem rampSetup_onCourse (hdur : dur ≠ 0) : LedOnCourse (rampSetup target dur l) := by
  refine (ledOnCourse_iff _).2 (.inr fun c => ?_)
  have h := channelOnCourse_increment (target := target.get c) (cur := l.cs.get c) hdur
  cases c <;> exact h

theorem rampSetup_inc_get (c : Channel) :
    (rampSetup target dur l).inc.get c = increment (target.get c) (l.cs.get c) dur :=
  PerChannel.get_of _ c

/-- After as many ticks as it has left, a RAMPING LED shows its target. -/
theorem fadeStep_iterate_cs (h : l.rem ≠ 0) : (fadeStep^[l.rem.toNat] l).cs = l.tgt := by
  obtain ⟨n, hn⟩ := Nat.exists_eq_succ_of_ne_zero (BitVec.toNat_ne.1 h)
  rw [hn, Function.iterate_succ_apply', fadeStep_cs_of_final, (fadeStep_iterate_inc_tgt l n).2]
  rw [fadeStep_iterate_rem_toNat]
  omega

/-- Every tick of a fade moves each channel towards the target in the direction set at the start. -/
theorem fade_movesTowards (hdur : dur ≠ 0) (c : Channel) {k : Nat} (hk : k < dur.toNat) :
    MovesTowards (increment (target.get c) (l.cs.get c) dur)
      ((fadeStep^[k] (rampSetup target dur l)).cs.get c)
      ((fadeStep^[k + 1] (rampSetup target dur l)).cs.get c) (target.get c) := by
  obtain ⟨hinc, htgt⟩ := fadeStep_iterate_inc_tgt (rampSetup target dur l) k
  have hrem := fadeStep_iterate_rem_toNat (rampSetup target dur l) k
  have hne : (fadeStep^[k] (rampSetup target dur l)).rem ≠ 0 :=
    BitVec.toNat_ne.2 (hrem.trans_ne (Nat.sub_pos_of_lt hk).ne')
  have h := (fadeStep_onCourse (fadeStep_iterate_onCourse (rampSetup_onCourse hdur) k)).2 hne c
  rwa [hinc, htgt, rampSetup_inc_get, ← Function.iterate_succ_apply' fadeStep] at h

/-- A channel that starts at its target stays there: it would have to move down and not below it. -/
theorem fade_at_target_stays (hdur : dur ≠ 0) (c : Channel) (hc : l.cs.get c = target.get c) {k : Nat}
    (hk : k ≤ dur.toNat) : (fadeStep^[k] (rampSetup target dur l)).cs.get c = target.get c := by
  induction k with
  | zero => exact hc
  | succ k ih =>
    have h := fade_movesTowards (l := l) (target := target) hdur c hk
    rw [MovesTowards, direction_increment, hc, ih (by omega)] at h
    simp only [lt_irrefl, decide_false, Bool.false_eq_true, if_false] at h
    exact BitVec.eq_of_toNat_eq (Nat.le_antisymm h.2 h.1)

/-- A fade is monotone: each tick moves a channel from its start towards its target, never past it
(41_fade_tick.md R151). -/
theorem fade_monotone (hdur : dur ≠ 0) (c : Channel) {k : Nat} (hk : k < dur.toNat) :
    let now := ((fadeStep^[k] (rampSetup target dur l)).cs.get c).toNat
    let next := ((fadeStep^[k + 1] (rampSetup target dur l)).cs.get c).toNat
    ((l.cs.get c).toNat ≤ (target.get c).toNat → now ≤ next ∧ next ≤ (target.get c).toNat) ∧
      ((target.get c).toNat ≤ (l.cs.get c).toNat → next ≤ now ∧ (target.get c).toNat ≤ next) := by
  have h := fade_movesTowards (l := l) (target := target) hdur c hk
  rw [MovesTowards, direction_increment] at h
  rcases Nat.lt_or_ge (l.cs.get c).toNat (target.get c).toNat with hup | hdown
  · rw [if_pos (decide_eq_true hup)] at h
    exact ⟨fun _ => h, fun hle => absurd hup hle.not_gt⟩
  · rw [if_neg (by simpa using hdown)] at h
    refine ⟨fun hle => ?_, fun _ => h.symm⟩
    have hc : l.cs.get c = target.get c := BitVec.eq_of_toNat_eq (Nat.le_antisymm hle hdown)
    rw [fade_at_target_stays hdur c hc hk.le, fade_at_target_stays hdur c hc hk]
    exact ⟨le_rfl, le_rfl⟩

end Fade

/-- Settles O25: the LED stays on course at every tick, which gives the monotone approach; the final tick
gives the arrival, and a channel at its target is caught between two bounds that are equal. -/
theorem fadesConvergeMonotonicallyAndStayPut : Obligations.FadesConvergeMonotonicallyAndStayPut := by
  intro l target dur hdur
  have hrem := fadeStep_iterate_rem_toNat (rampSetup target dur l)
  refine ⟨fadeStep_iterate_cs (l := rampSetup target dur l) hdur, ?_,
    fun c k hk => fade_monotone hdur c hk, fun c k hc hk => ⟨?_, ?_, hrem k⟩⟩
  · exact BitVec.eq_of_toNat_eq ((hrem dur.toNat).trans (Nat.sub_self _))
  · rw [rampSetup_inc_get, hc, increment_self]
  · exact fade_at_target_stays hdur c hc hk

/-- Settles O22: of the three cases of a tick only the first has a counter of 0. -/
theorem idleLedIsUntouchedByATick : Obligations.IdleLedIsUntouchedByATick := by
  intro l hidle
  rcases fadeStep_cases l with ⟨_, h⟩ | ⟨hr, _⟩ | ⟨hr, _⟩
  · exact h
  · simp [hidle] at hr
  · simp [hidle] at hr

end Sys2Proof.Machine
end

section
/-! PROOFS. The fade commands do not look at the status report (43_commands.md R196, R197), and a report
with a wrong identifier is discarded (43_commands.md R192). -/

namespace Sys2Proof.Machine

/-! ### Replacing the status report commutes with everything a fade command does -/

section StatusIsNotRead

variable (s : State) (x : Report)

theorem withStatus_withStatus (y : Report) : (s.withStatus x).withStatus y = s.withStatus y := rfl

theorem onLeds_withStatus (n : Nat) (f : Led → Led) :
    (s.withStatus x).onLeds n f = (s.onLeds n f).withStatus x := by
  cases n <;> rfl

/-- A step of the handler does not read the status report, in any of its four cases (42_transmitter.md
R166). -/
theorem txByteComplete_withStatus :
    txByteComplete (s.withStatus x) = (txByteComplete s).withStatus x := by
  have hexhausted : txExhausted (s.withStatus x) = txExhausted s := rfl
  simp only [txByteComplete, State.withStatus_tx, hexhausted]
  split
  · split
    · split <;> rfl
    · rfl
  · rfl

theorem microStep_withStatus (n : Nat) (target : Colour) (m : Micro) :
    microStep n target (s.withStatus x) m = (microStep n target s m).withStatus x := by
  cases m with
  | handler => exact txByteComplete_withStatus s x
  | write k =>
    simp only [microStep]
    split
    · exact onLeds_withStatus s x _ _
    · rfl

theorem microRun_withStatus (n : Nat) (target : Colour) (ms : List Micro) :
    microRun n target (s.withStatus x) ms = (microRun n target s ms).withStatus x :=
  List.foldl_hom (State.withStatus · x) fun t m => microStep_withStatus t x n target m

theorem beginFade_withStatus (n : Nat) (target : Colour) (dur : Half) :
    beginFade n target dur (s.withStatus x) = (beginFade n target dur s).withStatus x := by
  by_cases hdur : dur = 0
  · subst hdur
    rw [beginFade_now, beginFade_now, immediateSet, immediateSet, State.withStatus_interleave,
      microRun_withStatus, onLeds_withStatus]
  · rw [beginFade_ramp _ _ _ hdur, beginFade_ramp _ _ _ hdur, onLeds_withStatus]

theorem fadeCommand_withStatus (p : Payload) :
    fadeCommand p (s.withStatus x) = (fadeCommand p s).withStatus x :=
  beginFade_withStatus (stage p s) x _ _ _

end StatusIsNotRead

/-- The two fade commands' echoes differ in the code only (43_commands.md R191). -/
theorem encode_fadeAlias_eq (c : Config) (p : Payload) :
    encode c (.fadeAlias p) = { encode c (.fade p) with b1 := c.codeFadeAlias } := rfl

/-- A fade command leaves the status report as the echo before it wrote it (43_commands.md R196). -/
theorem after_fade_status (p : Payload) (s : State) :
    (after (.fade p) s).status = encode s.cfg (.fade p) := by
  rw [after, fadeCommand_withStatus, State.withStatus_status]

/-- FADE_ALIAS leaves the state FADE leaves, with its own echo in place of FADE's (43_commands.md R197). -/
theorem after_fadeAlias_eq (p : Payload) (s : State) :
    after (.fadeAlias p) s = (after (.fade p) s).withStatus (encode s.cfg (.fadeAlias p)) := by
  rw [after, after, ← fadeCommand_withStatus, withStatus_withStatus]

/-- Settles O12: the whole command commutes with replacing the status report, so the two commands' states
differ as their echoes do, and those differ in the code. -/
theorem aliasIsFadeButForTheEchoedCode : Obligations.AliasIsFadeButForTheEchoedCode := by
  intro p s
  refine ⟨_, _, exec_eq_after _ s, exec_eq_after _ s, ?_, ?_, ?_⟩
  · rw [after_fade_status]
    rfl
  · rw [after_fadeAlias_eq]
    rfl
  · rw [after_fadeAlias_eq, encode_fadeAlias_eq, after_fade_status]
    rfl

/-! ### DISCARD -/

/-- A report with a wrong identifier decodes to DISCARD, whatever its code (30_encoding.md R106, R107). -/
theorem decodeReport_of_wrong_identifier (c : Config) {r : Report} (h : r.b0 ≠ reportId) :
    decodeReport c r = .discard r.b0 r.b1 (payloadOf r) :=
  if_pos h

/-- On the bytes of a report SET_REPORT executes the command they decode to (43_commands.md R190). -/
theorem setReport_reportBytes (r : Report) (ms : List Micro) (s : State) :
    setReport (reportBytes r) ms s = .next (after (decodeReport s.cfg r) (s.withInterleave ms)) := by
  rw [← exec_eq_after]
  rfl

/-- Settles O19: DISCARD leaves every state as it is, and it is what every report with a wrong identifier
decodes to. -/
theorem wrongIdentifierIsDiscarded : Obligations.WrongIdentifierIsDiscarded := by
  refine ⟨fun rid code p s => exec_eq_after (.discard rid code p) s, ?_⟩
  intro s r ms rest hin hrun hid
  rw [step_event hin hrun, deliverRunning, setReport_reportBytes, decodeReport_of_wrong_identifier _ hid]
  rfl

end Sys2Proof.Machine
end

section
/-! PROOFS. The decoder and the encoder agree (30_encoding.md, sections 1, 4, 5 and 6). -/

namespace Sys2Proof.Machine

/-! ### The codes select the commands -/

/-- The legal choices of the command codes keep the five apart (00_scope.md R7). -/
theorem codes_nodup {c : Config} (h : c.valid = true) : c.codes.Nodup := by
  simp only [Config.valid, Bool.and_eq_true, decide_eq_true_eq] at h
  exact h.1.1.1.1

/-- A report with the report identifier decodes by its code (30_encoding.md R100, R107). -/
theorem decodeReport_of_identifier (c : Config) {r : Report} (h : r.b0 = reportId) :
    decodeReport c r =
      if r.b1 = c.codeFade then .fade (payloadOf r)
      else if r.b1 = c.codeFadeAlias then .fadeAlias (payloadOf r)
      else if r.b1 = c.codeArmReset then .armReset (payloadOf r)
      else if r.b1 = codeVersion then .version (payloadOf r)
      else if r.b1 = codeRead then .readLed (payloadOf r)
      else .nop r.b1 (payloadOf r) :=
  if_neg (not_not_intro h)

/-- Decoding an encoded command is selecting by its identifier and code: the operands survive. -/
theorem decodeReport_encode {c : Config} {i : Instr} (hc : c.valid = true) (hi : WellFormed c i = true) :
    decodeReport c (encode c i) = i := by
  have hcodes := codes_nodup hc
  simp only [Config.codes, List.nodup_cons, List.mem_cons, List.not_mem_nil, or_false, not_or] at hcodes
  obtain ⟨⟨hfa, hfr, hfv, hfd⟩, ⟨har, hav, had⟩, ⟨hrv, hrd⟩, hvd, -⟩ := hcodes
  cases i with
  | discard rid code p =>
    have hid : rid ≠ reportId := by simpa [WellFormed] using hi
    exact (decodeReport_of_wrong_identifier c hid).trans (by rw [encode, payloadOf_reportOf]; rfl)
  | nop code p =>
    have hcode : code ∉ c.codes := by simpa [WellFormed] using hi
    simp only [Config.codes, List.mem_cons, List.not_mem_nil, or_false, not_or] at hcode
    obtain ⟨hf, ha, hr, hv, hd⟩ := hcode
    rw [decodeReport_of_identifier c rfl, encode, payloadOf_reportOf]
    simp [reportOf, hf, ha, hr, hv, hd]
  | fade p =>
    rw [decodeReport_of_identifier c rfl, encode, payloadOf_reportOf]
    simp [reportOf]
  | fadeAlias p =>
    rw [decodeReport_of_identifier c rfl, encode, payloadOf_reportOf]
    simp [reportOf, Ne.symm hfa]
  | armReset p =>
    rw [decodeReport_of_identifier c rfl, encode, payloadOf_reportOf]
    simp [reportOf, Ne.symm hfr, Ne.symm har]
  | version p =>
    rw [decodeReport_of_identifier c rfl, encode, payloadOf_reportOf]
    simp [reportOf, Ne.symm hfv, Ne.symm hav, Ne.symm hrv]
  | readLed p =>
    rw [decodeReport_of_identifier c rfl, encode, payloadOf_reportOf]
    simp [reportOf, Ne.symm hfd, Ne.symm had, Ne.symm hrd, Ne.symm hvd]

/-- Settles O1: the codes are pairwise distinct, so each code selects its own command, and the operand
fields survive the way through the bytes. -/
theorem decodeOfEncodedCommandIsTheCommand : Obligations.DecodeOfEncodedCommandIsTheCommand := by
  intro c i hc hi
  rw [decode_reportBytes, decodeReport_encode hc hi]

/-! ### Every report is one command -/

/-- What a report decodes to is well formed and encodes to the report: each branch of the decoder has
tested the bytes that its command's encoding writes (30_encoding.md R107). -/
theorem encode_decodeReport (c : Config) (r : Report) :
    WellFormed c (decodeReport c r) = true ∧ encode c (decodeReport c r) = r := by
  have henc := reportOf_payloadOf r
  by_cases hid : r.b0 = reportId
  · rw [decodeReport_of_identifier c hid]
    rw [hid] at henc
    split_ifs with hf ha hr hv hd
    · exact ⟨rfl, by rw [encode, ← hf, henc]⟩
    · exact ⟨rfl, by rw [encode, ← ha, henc]⟩
    · exact ⟨rfl, by rw [encode, ← hr, henc]⟩
    · exact ⟨rfl, by rw [encode, ← hv, henc]⟩
    · exact ⟨rfl, by rw [encode, ← hd, henc]⟩
    · exact ⟨by simp [WellFormed, Config.codes, *], henc⟩
  · rw [decodeReport_of_wrong_identifier c hid]
    exact ⟨by simpa [WellFormed] using hid, henc⟩

/-- Settles O2: the decoder answers on 8 bytes, and drops none of them. -/
theorem everyReportIsTheEncodingOfItsDecoding : Obligations.EveryReportIsTheEncodingOfItsDecoding :=
  fun c r => ⟨decodeReport c r, decode_reportBytes c r, encode_decodeReport c r⟩

/-! ### Eight bytes -/

/-- Eight bytes are the bytes of a report. -/
theorem exists_reportBytes {bytes : List Byte} (h : bytes.length = 8) : ∃ r, bytes = reportBytes r := by
  match bytes, h with
  | [b0, b1, b2, b3, b4, b5, b6, b7], _ => exact ⟨⟨b0, b1, b2, b3, b4, b5, b6, b7⟩, rfl⟩

/-- The decoder answers a command exactly on 8 bytes (20_memory.md R68). -/
theorem decode_eq_error_iff (c : Config) (bytes : List Byte) :
    decode c bytes = .error .notEightBytes ↔ bytes.length ≠ 8 := by
  constructor
  · rintro h hlen
    obtain ⟨r, rfl⟩ := exists_reportBytes hlen
    rw [decode_reportBytes] at h
    cases h
  · intro hlen
    unfold decode
    split
    · exact absurd rfl hlen
    · rfl

/-- Settles O3: the decoder's one branch that answers a command is the list of 8 bytes. -/
theorem onlyEightByteTransfersAreReports : Obligations.OnlyEightByteTransfersAreReports :=
  decode_eq_error_iff

/-- Settles O4, by evaluating the decoder on the nine words. -/
theorem wordsOfTheSpecDecode : Obligations.WordsOfTheSpecDecode := by
  unfold Obligations.WordsOfTheSpecDecode
  decide

/-! ### Operands -/

/-- The duration is big-endian in bytes 5 and 6 (30_encoding.md R98). -/
theorem payloadOf_dur_toNat (r : Report) : (payloadOf r).dur.toNat = r.b5.toNat * 256 + r.b6.toNat := by
  rw [payloadOf, BitVec.toNat_append, Nat.shiftLeft_eq_mul_pow, Nat.mul_comm,
    ← Nat.two_pow_add_eq_or_of_lt r.b6.isLt]

/-- Settles O5: the duration's bytes do not overlap, and normalising is a comparison with `LED_COUNT`. -/
theorem durationAndDestinationOperands : Obligations.DurationAndDestinationOperands := by
  refine ⟨payloadOf_dur_toNat, fun ledCount raw =>
    ⟨normalise_toNat ledCount raw, normalise_le ledCount raw, fun h => if_neg ?_⟩⟩
  have := raw.isLt
  omega

end Sys2Proof.Machine
end

section
/-! PROOFS. Which events have a step, what the ones that are no command do, and the runs that the model
executes (43_commands.md R204, 60_exceptions.md R240, 70_reset_and_hazards.md R250, R251, R270, R271). -/

namespace Sys2Proof.Machine

variable {s t : State} {e : Event} {rest : List Event}

/-! ### SET_REPORT -/

/-- SET_REPORT executes the command its bytes decode to, with the event's interleaving (43_commands.md
R190). -/
theorem setReport_of_decode {bytes : List Byte} {i : Instr} (ms : List Micro)
    (h : decode s.cfg bytes = .ok i) : setReport bytes ms s = exec i (s.withInterleave ms) := by
  simp only [setReport, h]

/-- Settles O6: the step takes the event off, the event runs the decoded command. -/
theorem stepRunsTheDecodedCommand : Obligations.StepRunsTheDecodedCommand := by
  intro s bytes ms rest i hin hrun hdec _
  exact (step_event hin hrun).trans (setReport_of_decode (s := s.withInputs rest) ms hdec)

/-- Settles O7: with an empty queue the step has nothing to deliver. -/
theorem blockWaitsForAnEvent : Obligations.BlockWaitsForAnEvent := by
  intro s hin
  simp only [step, nextEvent, hin]

/-- Settles O8: each command has a state that it leaves. -/
theorem everyCommandCompletes : Obligations.EveryCommandCompletes :=
  fun i s => ⟨after i s, exec_eq_after i s⟩

/-! ### The other events, one by one -/

/-- Settles O33: the event is the handler step while the signal is unmasked. -/
theorem completionEventRunsTheHandler : Obligations.CompletionEventRunsTheHandler := by
  intro s rest hin hrun
  rw [step_event hin hrun]
  exact ⟨completion_enabled s rest, completion_masked s rest⟩

/-- Settles O39: GET_REPORT writes the model's own record of replies only. -/
theorem getReportReturnsTheStatusAndChangesNothing :
    Obligations.GetReportReturnsTheStatusAndChangesNothing :=
  fun _ _ hin hrun => step_event hin hrun

/-- A RESET is taken in every state, before and after the end of a run. -/
theorem step_reset (hin : s.inputs = .reset :: rest) : step s = .next (resetBlock (s.withInputs rest)) := by
  cases hrun : s.inBootloader with
  | false => exact step_event hin hrun
  | true => exact (step_ended hin hrun).trans (if_pos rfl)

/-- Every LED is at its reset value after RESET (10_state.md R44). -/
theorem resetBlock_leds (s : State) : (resetBlock s).leds = List.replicate s.ledCount ledReset := rfl

/-- Settles O41: RESET is taken in every state, and builds the reset state. -/
theorem resetLeavesEveryElementZero : Obligations.ResetLeavesEveryElementZero := by
  intro s rest hin
  refine ⟨_, step_reset hin, rfl, resetBlock_ledCount _, rfl, rfl, fun l hl => ?_, rfl, rfl, rfl, rfl, rfl,
    rfl, rfl⟩
  rw [resetBlock_leds] at hl
  obtain rfl := List.eq_of_mem_replicate hl
  exact ⟨rfl, rfl, rfl, rfl, rfl⟩

theorem step_restart_armed (hin : s.inputs = .restart :: rest) (hrun : s.inBootloader = false)
    (harm : s.rstArmed = true) :
    step s = .next ((resetBlock (s.withInputs rest)).withInBootloader true) := by
  rw [step_event hin hrun]
  simp only [deliverRunning, restart, State.withInputs_rstArmed, harm]

theorem step_restart_unarmed (hin : s.inputs = .restart :: rest) (hrun : s.inBootloader = false)
    (harm : s.rstArmed = false) : step s = .refused .restartNotArmed := by
  rw [step_event hin hrun]
  simp only [deliverRunning, restart, State.withInputs_rstArmed, harm]

/-- Settles O42: RESTART is taken while armed, and the state it leaves is one whose run has ended. -/
theorem restartNeedsArmingAndEndsTheRun : Obligations.RestartNeedsArmingAndEndsTheRun := by
  intro s rest hin hrun
  refine ⟨step_restart_unarmed hin hrun, step_restart_armed hin hrun, fun t e more hstep hrest => ?_⟩
  cases harm : s.rstArmed with
  | false => rw [step_restart_unarmed hin hrun harm] at hstep; cases hstep
  | true =>
    rw [step_restart_armed hin hrun harm] at hstep
    cases hstep
    exact step_ended hrest rfl

/-! ### Enabled events are the ones taken -/

theorem step_report_refused {bytes : List Byte} {ms : List Micro} (hin : s.inputs = .setReport bytes ms :: rest)
    (hrun : s.inBootloader = false) (hlen : bytes.length ≠ 8) : step s = .refused .reportNotEightBytes := by
  rw [step_event hin hrun]
  simp only [deliverRunning, setReport, (decode_eq_error_iff _ bytes).2 hlen]

/-- An event that is not enabled is refused (70_reset_and_hazards.md R271). -/
theorem step_refused_of_not_enabled (hin : s.inputs = e :: rest) (he : Enabled s e = false) :
    ∃ r, step s = .refused r := by
  cases hrun : s.inBootloader with
  | true =>
    have hne : e ≠ .reset := by rintro rfl; cases he
    exact ⟨_, (step_ended hin hrun).trans (if_neg hne)⟩
  | false =>
    cases e with
    | reset => cases he
    | setReport bytes ms => exact ⟨_, step_report_refused hin hrun (by simpa [Enabled, hrun] using he)⟩
    | getReport => simp [Enabled, hrun] at he
    | tick => simp [Enabled, hrun] at he
    | txByteComplete =>
      have hmasked : s.tx.en = false := by simpa [Enabled, hrun] using he
      exact ⟨_, (completionEventRunsTheHandler s rest hin hrun).2 hmasked⟩
    | restart => exact ⟨_, step_restart_unarmed hin hrun (by simpa [Enabled, hrun] using he)⟩

/-- An enabled event is taken (70_reset_and_hazards.md R270). -/
theorem step_taken_of_enabled (hin : s.inputs = e :: rest) (he : Enabled s e = true) :
    ∃ t, step s = .next t := by
  by_cases hreset : e = .reset
  · subst hreset
    exact ⟨_, step_reset hin⟩
  have hrun : s.inBootloader = false := by cases e <;> simp_all [Enabled]
  cases e with
  | reset => exact ⟨_, step_reset hin⟩
  | setReport bytes ms =>
    obtain ⟨r, rfl⟩ := exists_reportBytes (bytes := bytes) (by simpa [Enabled, hrun] using he)
    exact ⟨_, (step_event hin hrun).trans (setReport_reportBytes r ms _)⟩
  | getReport => exact ⟨_, step_event hin hrun⟩
  | tick => exact ⟨_, step_event hin hrun⟩
  | txByteComplete =>
    have hen : s.tx.en = true := by simpa [Enabled, hrun] using he
    exact ⟨_, (completionEventRunsTheHandler s rest hin hrun).1 hen⟩
  | restart => exact ⟨_, step_restart_armed hin hrun (by simpa [Enabled, hrun] using he)⟩

/-- A step answers a next state exactly when its event is enabled. -/
theorem step_taken_iff (hin : s.inputs = e :: rest) : (∃ t, step s = .next t) ↔ Enabled s e = true := by
  refine ⟨fun ⟨t, ht⟩ => ?_, step_taken_of_enabled hin⟩
  by_contra hne
  obtain ⟨r, hr⟩ := step_refused_of_not_enabled hin (Bool.eq_false_iff.2 hne)
  rw [ht] at hr
  cases hr

/-- No step faults: an event is taken or refused (60_exceptions.md R220). -/
theorem step_ne_fault (hin : s.inputs = e :: rest) (f : Fault) : step s ≠ .fault f := by
  cases he : Enabled s e with
  | true =>
    obtain ⟨t, ht⟩ := step_taken_of_enabled hin he
    rw [ht]
    nofun
  | false =>
    obtain ⟨r, hr⟩ := step_refused_of_not_enabled hin he
    rw [hr]
    nofun

/-- Settles O50: an enabled event is taken, and each way of not being enabled has its refusal. -/
theorem exactlyTheEnabledEventsAreTaken : Obligations.ExactlyTheEnabledEventsAreTaken := by
  intro s e rest hin
  refine ⟨step_taken_iff hin, step_ne_fault hin,
    fun hrun hne => (step_ended hin hrun).trans (if_neg hne), fun hrun => ⟨?_, ?_, ?_⟩⟩
  · rintro bytes ms rfl hlen
    exact step_report_refused hin hrun hlen
  · rintro rfl hmasked
    exact (completionEventRunsTheHandler s rest hin hrun).2 hmasked
  · rintro rfl harm
    exact step_restart_unarmed hin hrun harm

/-! ### Runs -/

/-- A run of one step and more is a step and the run from there. -/
theorem run_succ_iff {k : Nat} : Host.Core.run core (k + 1) s = .next t ↔
    ∃ u, step s = .next u ∧ Host.Core.run core k u = .next t := by
  have hcore : core.step s = step s := rfl
  cases hs : step s <;> simp only [Host.Core.run, hcore, hs]
  case next u => exact ⟨fun h => ⟨u, rfl, h⟩, by rintro ⟨_, ⟨⟩, h⟩; exact h⟩
  all_goals exact ⟨nofun, by rintro ⟨_, ⟨⟩, _⟩⟩

/-- With no event left a run stays where it is (70_reset_and_hazards.md R251). -/
theorem run_of_no_event {k : Nat} (hin : s.inputs = []) (h : Host.Core.run core k s = .next t) : t = s := by
  induction k with
  | zero => cases h; rfl
  | succ k ih =>
    obtain ⟨u, hu, hk⟩ := run_succ_iff.1 h
    rw [blockWaitsForAnEvent s hin] at hu
    cases hu
    exact ih hk

/-- Wherever a run from `s` comes to an event, `P` holds of the state and the event. -/
def AlongRun (P : State → Event → Prop) (s : State) : Prop :=
  ∀ (k : Nat) (u : State) (e : Event) (rest : List Event),
    Host.Core.run core k s = .next u → u.inputs = e :: rest → P u e

theorem alongRun_of_no_event {P : State → Event → Prop} (hin : s.inputs = []) : AlongRun P s := by
  intro k u e rest hk hu
  rw [run_of_no_event hin hk, hin] at hu
  cases hu

theorem AlongRun.head {P : State → Event → Prop} (h : AlongRun P s) (hin : s.inputs = e :: rest) : P s e :=
  h 0 s e rest rfl hin

/-- `P` holds along a run exactly if it holds where the run is and along the rest. -/
theorem alongRun_step {P : State → Event → Prop} (hin : s.inputs = e :: rest) (hstep : step s = .next t) :
    AlongRun P s ↔ P s e ∧ AlongRun P t := by
  refine ⟨fun h => ⟨h.head hin, fun k u e' rest' hk => h (k + 1) u e' rest' (run_succ_iff.2 ⟨t, hstep, hk⟩)⟩, ?_⟩
  rintro ⟨hhere, hthere⟩ k u e' rest' hk hu
  cases k with
  | zero =>
    cases hk
    rw [hin] at hu
    cases hu
    exact hhere
  | succ k =>
    obtain ⟨v, hv, hk⟩ := run_succ_iff.1 hk
    rw [hstep] at hv
    cases hv
    exact hthere k u e' rest' hk hu

/-- Every event is enabled where it comes exactly if the model takes them all. -/
theorem alongRun_enabled_iff (s : State) :
    AlongRun (fun u e => Enabled u e = true) s ↔ ∃ t, Host.Core.run core s.inputs.length s = .next t := by
  generalize hin : s.inputs = es
  induction es generalizing s with
  | nil => exact ⟨fun _ => ⟨s, rfl⟩, fun _ => alongRun_of_no_event hin⟩
  | cons e es ih =>
    constructor
    · intro h
      obtain ⟨u, hu⟩ := step_taken_of_enabled hin (h.head hin)
      obtain ⟨t, ht⟩ := (ih u (step_inputs hin hu)).1 ((alongRun_step hin hu).1 h).2
      exact ⟨t, run_succ_iff.2 ⟨u, hu, ht⟩⟩
    · rintro ⟨t, ht⟩
      obtain ⟨u, hu, ht⟩ := run_succ_iff.1 ht
      exact (alongRun_step hin hu).2 ⟨(step_taken_iff hin).1 ⟨u, hu⟩, (ih u (step_inputs hin hu)).2 ⟨t, ht⟩⟩

/-- Settles O51: an event is taken exactly when it is enabled, at every point of a run. -/
theorem runsAreTheSequencesTheModelExecutes : Obligations.RunsAreTheSequencesTheModelExecutes :=
  fun s hreset => (and_iff_right hreset).trans (alongRun_enabled_iff s)

end Sys2Proof.Machine
end

section
/-! PROOFS. The transmitter: what each completion does, what a frame still owes, and the bytes a frame puts
on the wire (42_transmitter.md R161 to R172). -/

namespace Sys2Proof.Machine

variable {s : State}

/-! ### The four cases of the handler (42_transmitter.md R166) -/

theorem txExhausted_iff : txExhausted s = true ↔ s.tx.src.toNat = 3 * s.ledCount := beq_iff_eq

theorem txByteComplete_finish (hen : s.tx.en = true) (hbits : s.tx.bits = 0)
    (hsrc : s.tx.src.toNat = 3 * s.ledCount) : txByteComplete s = txFinish s := by
  rw [txByteComplete, if_pos hen, if_pos hbits, if_pos (txExhausted_iff.2 hsrc)]

theorem txByteComplete_load (hen : s.tx.en = true) (hbits : s.tx.bits = 0)
    (hsrc : s.tx.src.toNat ≠ 3 * s.ledCount) : txByteComplete s = txShift (txLoad s) := by
  rw [txByteComplete, if_pos hen, if_pos hbits, if_neg (mt txExhausted_iff.1 hsrc)]

theorem txByteComplete_shift (hen : s.tx.en = true) (hbits : s.tx.bits ≠ 0) :
    txByteComplete s = txShift s := by
  rw [txByteComplete, if_pos hen, if_neg hbits]

theorem txLoad_eq (hen : s.tx.en = true) :
    txLoad s = s.withTx ⟨true, s.tx.src + 1, s.csByte s.tx.src.toNat, 8⟩ := by
  rw [← hen]
  rfl

/-- Settles O32: the four cases, each with its registers written out. -/
theorem completionHandlerCases : Obligations.CompletionHandlerCases := by
  refine fun s => ⟨txByteComplete_masked s, txByteComplete_finish, txByteComplete_shift,
    fun hen hbits hsrc => ?_⟩
  rw [txByteComplete_load hen hbits hsrc.ne, txLoad_eq hen]
  simp [txShift, State.emit, State.withTx, State.withWire, State.csByte]
  rfl

/-! ### What a frame still owes -/

/-- The count of a frame depends on the transmitter's registers and on `LED_COUNT` only. -/
theorem bytesOwed_congr {s t : State} (htx : t.tx = s.tx) (hn : t.ledCount = s.ledCount) :
    bytesOwed t = bytesOwed s := by
  rw [bytesOwed, bytesOwed, htx, hn]

theorem completionsOwed_congr {s t : State} (htx : t.tx = s.tx) (hn : t.ledCount = s.ledCount) :
    completionsOwed t = completionsOwed s := by
  rw [completionsOwed, completionsOwed, htx, bytesOwed_congr htx hn]

theorem cursorInRange_congr {s t : State} (htx : t.tx = s.tx) (hn : t.ledCount = s.ledCount) :
    CursorInRange t ↔ CursorInRange s := by
  rw [CursorInRange, CursorInRange, htx, hn]

theorem completionsOwed_eq_zero_iff : completionsOwed s = 0 ↔ s.tx.en = false := by
  cases h : s.tx.en <;> simp [completionsOwed, h]

theorem bytesOwed_of_en (hen : s.tx.en = true) :
    bytesOwed s = s.tx.bits.toNat + 8 * (3 * s.ledCount - s.tx.src.toNat) :=
  if_pos hen

theorem completionsOwed_of_en (hen : s.tx.en = true) : completionsOwed s = bytesOwed s + 1 := if_pos hen

/-- A frame that starts owes the whole Color Store, and the completion that ends it (42_transmitter.md
R165, R170). -/
theorem owed_of_frame_start {cur : Byte} (htx : s.tx = ⟨true, 0, cur, 0⟩) :
    bytesOwed s = 24 * s.ledCount ∧ completionsOwed s = 24 * s.ledCount + 1 := by
  have hbytes : bytesOwed s = 24 * s.ledCount := by
    simp [bytesOwed, htx]
    omega
  exact ⟨hbytes, by simp [completionsOwed, htx, hbytes]⟩

@[simp] theorem txLoad_ledCount (s : State) : (txLoad s).ledCount = s.ledCount := rfl
@[simp] theorem txShift_ledCount (s : State) : (txShift s).ledCount = s.ledCount := rfl

/-- Loading a byte moves it from the source to the register: the frame owes as much as before. -/
theorem txLoad_counts (hn : s.ledCount ≤ 255) (hen : s.tx.en = true) (hbits : s.tx.bits = 0)
    (hsrc : s.tx.src.toNat < 3 * s.ledCount) :
    CursorInRange (txLoad s) ∧ bytesOwed (txLoad s) = bytesOwed s := by
  have hnext : (s.tx.src + 1).toNat = s.tx.src.toNat + 1 := by
    rw [BitVec.toNat_add]
    simp
    omega
  have hsrc' : (txLoad s).tx.src.toNat = s.tx.src.toNat + 1 := hnext
  have hbits' : (txLoad s).tx.bits.toNat = 8 := rfl
  refine ⟨⟨hbits'.le, ?_, fun _ h => ?_⟩, ?_⟩
  · rw [hsrc', txLoad_ledCount]
    omega
  · rw [h] at hsrc'
    simp at hsrc'
  · rw [bytesOwed_of_en (s := txLoad s) hen, bytesOwed_of_en hen, hsrc', hbits', hbits, txLoad_ledCount]
    simp
    omega

/-- Each shift takes one byte off what the frame owes. -/
theorem txShift_counts (hen : s.tx.en = true) (hbits : s.tx.bits ≠ 0) (h : CursorInRange s) :
    CursorInRange (txShift s) ∧ bytesOwed (txShift s) + 1 = bytesOwed s := by
  obtain ⟨hle, hsrc, hloaded⟩ := h
  have hpos : s.tx.bits.toNat ≠ 0 := BitVec.toNat_ne.1 hbits
  have hbits' : (txShift s).tx.bits.toNat = s.tx.bits.toNat - 1 := by
    show (s.tx.bits - 1).toNat = _
    rw [BitVec.toNat_sub]
    simp
    omega
  have hsrc' : (txShift s).tx.src = s.tx.src := rfl
  refine ⟨⟨by omega, hsrc, fun _ => hloaded hbits⟩, ?_⟩
  rw [bytesOwed_of_en (s := txShift s) hen, bytesOwed_of_en hen, hbits', hsrc', txShift_ledCount]
  omega

/-- A step of the handler keeps the cursor in range, keeps the total of the bytes sent and owed, and takes
one completion off those owed (42_transmitter.md R170, R172). -/
theorem txByteComplete_counts (hn : s.ledCount ≤ 255) (h : CursorInRange s) :
    CursorInRange (txByteComplete s) ∧
      (txByteComplete s).wire.length + bytesOwed (txByteComplete s) = s.wire.length + bytesOwed s ∧
      completionsOwed (txByteComplete s) = completionsOwed s - 1 := by
  obtain ⟨-, hsrc, -⟩ := id h
  cases hen : s.tx.en with
  | false =>
    have hzero := completionsOwed_eq_zero_iff.2 hen
    rw [txByteComplete_masked s hen]
    exact ⟨h, rfl, by omega⟩
  | true =>
    by_cases hbits : s.tx.bits = 0
    · by_cases hend : s.tx.src.toNat = 3 * s.ledCount
      · have hzero : bytesOwed s = 0 := by simp [bytesOwed_of_en hen, hbits, hend]
        rw [txByteComplete_finish hen hbits hend, completionsOwed_of_en hen, hzero]
        exact ⟨h, rfl, rfl⟩
      · obtain ⟨hcur, hbytes⟩ := txLoad_counts hn hen hbits (by omega)
        obtain ⟨hcur', hbytes'⟩ := txShift_counts (s := txLoad s) hen (by simp [txLoad]) hcur
        rw [txByteComplete_load hen hbits hend, completionsOwed_of_en hen,
          completionsOwed_of_en (s := txShift (txLoad s)) hen, ← hbytes, ← hbytes']
        refine ⟨hcur', ?_, rfl⟩
        simp [txShift, State.emit, txLoad]
        omega
    · obtain ⟨hcur, hbytes⟩ := txShift_counts hen hbits h
      rw [txByteComplete_shift hen hbits, completionsOwed_of_en hen,
        completionsOwed_of_en (s := txShift s) hen, ← hbytes]
      refine ⟨hcur, ?_, rfl⟩
      simp [txShift, State.emit]
      omega

/-- After `k` handler steps the frame owes `k` completions less. -/
theorem txByteComplete_iterate_counts (hn : s.ledCount ≤ 255) (h : CursorInRange s) (k : Nat) :
    CursorInRange (txByteComplete^[k] s) ∧ (txByteComplete^[k] s).ledCount = s.ledCount ∧
      completionsOwed (txByteComplete^[k] s) = completionsOwed s - k := by
  induction k with
  | zero => exact ⟨h, rfl, rfl⟩
  | succ k ih =>
    obtain ⟨hcur, hcount, howed⟩ := ih
    obtain ⟨hcur', -, howed'⟩ := txByteComplete_counts (by omega) hcur
    rw [Function.iterate_succ_apply', txByteComplete_ledCount, howed', howed, Nat.sub_sub]
    exact ⟨hcur', hcount, rfl⟩

/-- The transmitter is busy exactly while completions are owed. -/
theorem txByteComplete_iterate_en (hn : s.ledCount ≤ 255) (h : CursorInRange s) (k : Nat) :
    (txByteComplete^[k] s).tx.en = true ↔ k < completionsOwed s := by
  obtain ⟨-, -, howed⟩ := txByteComplete_iterate_counts hn h k
  rw [← Bool.not_eq_false, ← completionsOwed_eq_zero_iff, howed]
  omega

/-- Settles O38: each completion takes one off those owed, and the transmitter is busy while some are. -/
theorem owedCompletionsEndTheFrame : Obligations.OwedCompletionsEndTheFrame := by
  rintro s ⟨-, -, hn, hcur, -, -⟩
  have hen := txByteComplete_iterate_en hn hcur
  exact ⟨Bool.eq_false_iff.2 fun h => lt_irrefl _ ((hen _).1 h), fun k hk => (hen k).2 hk⟩

/-! ### The bits of one byte -/

/-- `k` completions within a byte send its next `k` bits, the most significant first (42_transmitter.md
R164, R168). -/
theorem txByteComplete_iterate_within_byte (hen : s.tx.en = true) (hle : s.tx.bits.toNat ≤ 8) {k : Nat}
    (hk : k ≤ s.tx.bits.toNat) :
    txByteComplete^[k] s =
      (s.withTx { s.tx with cur := s.tx.cur <<< k, bits := s.tx.bits - BitVec.ofNat 4 k }).withWire
        (s.wire ++ (List.range k).map fun i => pattern s.cfg (s.tx.cur.getLsbD (7 - i))) := by
  induction k with
  | zero => simp [State.withTx, State.withWire]
  | succ k ih =>
    have hleft : s.tx.bits - BitVec.ofNat 4 k ≠ 0 := by
      intro h
      have hall := congrArg BitVec.toNat (sub_eq_zero.1 h)
      rw [BitVec.toNat_ofNat] at hall
      omega
    have hbit : (s.tx.cur <<< k).getLsbD 7 = s.tx.cur.getLsbD (7 - k) := by
      have hk8 : ¬7 < k := by omega
      simp only [BitVec.getLsbD_shiftLeft, hk8, decide_false, Bool.not_false, Bool.true_and, decide_true,
        Nat.reduceLT]
    rw [Function.iterate_succ_apply', ih (by omega), txByteComplete_shift (by exact hen) (by exact hleft),
      List.range_succ, List.map_append, ← List.append_assoc]
    simp only [txShift, State.emit, State.withTx, State.withWire, hbit, List.map_cons, List.map_nil,
      BitVec.shiftLeft_add, BitVec.ofNat_add, BitVec.sub_sub]
    rfl

/-- Eight completions between bytes send the next source byte (42_transmitter.md R164, R167). -/
theorem txByteComplete_iterate_byte (hen : s.tx.en = true) (hbits : s.tx.bits = 0)
    (hsrc : s.tx.src.toNat < 3 * s.ledCount) :
    txByteComplete^[8] s =
      (s.withTx ⟨true, s.tx.src + 1, s.csByte s.tx.src.toNat <<< 8, 0⟩).withWire
        (s.wire ++ patternsOf s.cfg (s.csByte s.tx.src.toNat)) := by
  have hfirst : txByteComplete s = txByteComplete (txLoad s) := by
    rw [txByteComplete_load hen hbits hsrc.ne, txByteComplete_shift (s := txLoad s) hen (by simp [txLoad])]
  have hall : txByteComplete^[8] s = txByteComplete^[8] (txLoad s) := congrArg txByteComplete^[7] hfirst
  rw [hall, txByteComplete_iterate_within_byte (s := txLoad s) (k := 8) hen le_rfl le_rfl, txLoad_eq hen]
  simp [State.withTx, State.withWire]
  rfl

/-- Settles O34: the eight completions send the byte that the first of them loads. -/
theorem eightCompletionsSendOneByteMsbFirst : Obligations.EightCompletionsSendOneByteMsbFirst := by
  intro s hen hbits hsrc
  rw [txByteComplete_iterate_byte hen hbits hsrc]
  exact ⟨rfl, rfl, rfl, rfl⟩

/-! ### The bytes of one frame -/

/-- From the start of a frame, eight completions for each of `k` bytes send the first `k` bytes of the
Color Store. -/
theorem txByteComplete_iterate_bytes {cur₀ : Byte} (hn : s.ledCount ≤ 255) (htx : s.tx = ⟨true, 0, cur₀, 0⟩)
    {k : Nat} (hk : k ≤ 3 * s.ledCount) :
    ∃ cur, txByteComplete^[8 * k] s =
      (s.withTx ⟨true, BitVec.ofNat 10 k, cur, 0⟩).withWire
        (s.wire ++ (List.range k).flatMap fun i => patternsOf s.cfg (s.csByte i)) := by
  induction k with
  | zero =>
    refine ⟨cur₀, ?_⟩
    rw [List.range_zero, List.flatMap_nil, List.append_nil,
      show (⟨true, BitVec.ofNat 10 0, cur₀, 0⟩ : Tx) = s.tx from htx.symm]
    rfl
  | succ k ih =>
    obtain ⟨cur, hk'⟩ := ih (by omega)
    have hoffset : (BitVec.ofNat 10 k).toNat = k := by
      simp
      omega
    refine ⟨s.csByte k <<< 8, ?_⟩
    rw [Nat.mul_succ, Nat.add_comm, Function.iterate_add_apply, hk',
      txByteComplete_iterate_byte rfl rfl (hoffset.trans_lt hk), BitVec.ofNat_add, List.range_succ,
      List.flatMap_append, ← List.append_assoc, List.flatMap_singleton]
    simp only [State.withWire_tx, State.withTx_tx, hoffset]
    rfl

/-- The three bytes of LED `j + 1` in transmission order (20_memory.md R63). -/
theorem State.csByte_of_led {j : Nat} {l : Led} (h : s.leds[j]? = some l) :
    s.csByte (3 * j) = l.cs.g ∧ s.csByte (3 * j + 1) = l.cs.r ∧ s.csByte (3 * j + 2) = l.cs.b := by
  have h₀ : 3 * j / 3 = j := by omega
  have h₁ : (3 * j + 1) / 3 = j := by omega
  have h₂ : (3 * j + 2) / 3 = j := by omega
  rw [State.csByte_eq, State.csByte_eq, State.csByte_eq, h₀, h₁, h₂, h]
  refine ⟨?_, ?_, ?_⟩ <;> simp [channelOfOffset, PerChannel.get, Nat.add_mod]

/-- Three entries per element, in order, are the elements' triples in order. -/
theorem flatMap_range_three {α β : Type} (L : List α) (g : Nat → List β) (f : α → List β)
    (h : ∀ j x, L[j]? = some x → g (3 * j) ++ g (3 * j + 1) ++ g (3 * j + 2) = f x) :
    (List.range (3 * L.length)).flatMap g = L.flatMap f := by
  induction L using List.reverseRecOn with
  | nil => rfl
  | append_singleton L x ih =>
    have hinit := ih fun j y hj => h j y (List.getElem?_append_left (List.getElem?_eq_some_iff.1 hj).1 ▸ hj)
    have hlast := h L.length x (by simp)
    rw [List.length_append, List.length_singleton, Nat.mul_succ, List.range_succ, List.range_succ,
      List.range_succ]
    simp only [List.flatMap_append, List.flatMap_singleton, hinit, ← hlast, List.append_assoc]

/-- `FRAME(CS)` is the bytes of the Color Store by offset (20_memory.md R63, 42_transmitter.md R171). -/
theorem frameOf_eq (s : State) :
    frameOf s = (List.range (3 * s.ledCount)).flatMap fun k => patternsOf s.cfg (s.csByte k) := by
  refine (flatMap_range_three s.leds _ _ fun j l hj => ?_).symm
  obtain ⟨hg, hr, hb⟩ := State.csByte_of_led hj
  rw [hg, hr, hb]

theorem frameOf_length (s : State) : (frameOf s).length = 24 * s.ledCount := by
  simp [frameOf, patternsOf, State.ledCount, Nat.mul_comm]

/-- From the start of a frame the completions owed send `FRAME(CS)` and leave the transmitter idle
(42_transmitter.md R170, R171). -/
theorem txByteComplete_iterate_frame {cur₀ : Byte} (hn : s.ledCount ≤ 255) (htx : s.tx = ⟨true, 0, cur₀, 0⟩) :
    ∃ tx, tx.en = false ∧
      txByteComplete^[24 * s.ledCount + 1] s = (s.withTx tx).withWire (s.wire ++ frameOf s) := by
  obtain ⟨cur, hbytes⟩ := txByteComplete_iterate_bytes hn htx le_rfl
  have hend : (BitVec.ofNat 10 (3 * s.ledCount)).toNat = 3 * s.ledCount := by
    simp
    omega
  refine ⟨⟨false, BitVec.ofNat 10 (3 * s.ledCount), cur, 0⟩, rfl, ?_⟩
  rw [Function.iterate_succ_apply', show 24 * s.ledCount = 8 * (3 * s.ledCount) by omega, hbytes,
    txByteComplete_finish rfl rfl (by exact hend), frameOf_eq]
  rfl

/-! ### A frame as events -/

/-- An update of what neither the transmitter nor a fade reads: it leaves what they read, and commutes with
what they write. -/
structure UnreadUpdate (g : State → State) : Prop where
  cfg : ∀ s, (g s).cfg = s.cfg
  leds : ∀ s, (g s).leds = s.leds
  tx : ∀ s, (g s).tx = s.tx
  wire : ∀ s, (g s).wire = s.wire
  interleave : ∀ s, (g s).interleave = s.interleave
  withLeds : ∀ s x, (g s).withLeds x = g (s.withLeds x)
  withTx : ∀ s x, (g s).withTx x = g (s.withTx x)
  withWire : ∀ s x, (g s).withWire x = g (s.withWire x)
  withStg : ∀ s x, (g s).withStg x = g (s.withStg x)

theorem unreadUpdate_withInputs (x : List Event) : UnreadUpdate (State.withInputs · x) :=
  ⟨fun _ => rfl, fun _ => rfl, fun _ => rfl, fun _ => rfl, fun _ => rfl, fun _ _ => rfl, fun _ _ => rfl,
    fun _ _ => rfl, fun _ _ => rfl⟩

/-- The handler commutes with an unread update, in any of its four cases (42_transmitter.md R166). -/
theorem UnreadUpdate.txByteComplete {g : State → State} (hg : UnreadUpdate g) (s : State) :
    txByteComplete (g s) = g (txByteComplete s) := by
  have hcount : ∀ u, (g u).ledCount = u.ledCount := fun u => congrArg List.length (hg.leds u)
  have hbyte : ∀ u k, (g u).csByte k = u.csByte k := fun u k => State.csByte_congr (by rw [hg.leds]) k
  have hload : ∀ u, txLoad (g u) = g (txLoad u) := fun u => by
    rw [txLoad, hg.tx, hbyte, hg.withTx]
    rfl
  have hshift : ∀ u, txShift (g u) = g (txShift u) := fun u => by
    rw [txShift, State.emit, hg.tx, hg.cfg, hg.withTx, hg.wire, hg.withWire]
    rfl
  have hfinish : txFinish (g s) = g (txFinish s) := by
    rw [txFinish, hg.tx, hg.withTx]
    rfl
  have hexhausted : txExhausted (g s) = txExhausted s := by rw [txExhausted, hg.tx, hcount, txExhausted]
  simp only [Machine.txByteComplete, hg.tx, hexhausted, hload, hshift, hfinish]
  split
  · split
    · split <;> rfl
    · rfl
  · rfl

/-- The handler does not read the events still to come. -/
theorem txByteComplete_withInputs (s : State) (x : List Event) :
    txByteComplete (s.withInputs x) = (txByteComplete s).withInputs x :=
  (unreadUpdate_withInputs x).txByteComplete s

theorem txByteComplete_iterate_withInputs (s : State) (x : List Event) (k : Nat) :
    txByteComplete^[k] (s.withInputs x) = (txByteComplete^[k] s).withInputs x :=
  (Function.Semiconj.iterate_right (f := (State.withInputs · x))
    (fun t => (txByteComplete_withInputs t x).symm) k s).symm

/-- As many completion events as are owed, or fewer, are that many handler steps. -/
theorem run_completions {k : Nat} {rest : List Event} (hn : s.ledCount ≤ 255) (hcur : CursorInRange s)
    (hin : s.inputs = List.replicate k .txByteComplete ++ rest) (hrun : s.inBootloader = false)
    (hk : k ≤ completionsOwed s) :
    Host.Core.run core k s = .next ((txByteComplete^[k] s).withInputs rest) := by
  induction k generalizing s with
  | zero => rw [← show s.inputs = rest from hin]; rfl
  | succ k ih =>
    have hen : s.tx.en = true := (txByteComplete_iterate_en hn hcur 0).2 (by omega)
    obtain ⟨hcur', -, howed⟩ := txByteComplete_counts hn hcur
    have hstep := (completionEventRunsTheHandler s _ hin hrun).1 hen
    have hmore := ih (s := (txByteComplete s).withInputs (List.replicate k .txByteComplete ++ rest))
      (by simpa using hn) hcur' rfl (by simpa using hrun) (Nat.le_of_succ_le_succ ?_)
    · rw [txByteComplete_iterate_withInputs] at hmore
      exact run_succ_iff.2 ⟨_, hstep.trans (congrArg _ (txByteComplete_withInputs s _)), hmore⟩
    · calc k + 1 ≤ completionsOwed s := hk
        _ = completionsOwed (txByteComplete s) + 1 := by omega

/-! ### A TICK starts a frame (42_transmitter.md R165) -/

theorem tick_leds (s : State) : (tick s).leds = s.leds.map fadeStep := by rw [tick_eq]

theorem tick_tx (s : State) : (tick s).tx = ⟨true, 0, s.tx.cur, 0⟩ := by rw [tick_eq]

theorem tick_wire (s : State) : (tick s).wire = s.wire := by rw [tick_eq]

theorem tick_ledCount (s : State) : (tick s).ledCount = s.ledCount := by simp [State.ledCount, tick_leds]

/-- The TICK of a block whose transmitter is idle writes the LEDs and the transmitter only. -/
theorem tick_idle_frame (hidle : s.tx.en = false) :
    tick s = { s with leds := (tick s).leds, tx := (tick s).tx } := by
  rw [tick_eq, hidle]
  rfl

/-- Settles O35: the TICK puts the transmitter at the start of a frame, and the completions owed send it. -/
theorem undisturbedFrameIsTheColourStore : Obligations.UndisturbedFrameIsTheColourStore := by
  intro s rest hin hrun hidle hn
  have htick := step_event hin hrun
  generalize hs' : s.withInputs _ = s' at htick
  have hframe : tick s' = { s' with leds := (tick s').leds, tx := (tick s').tx } :=
    tick_idle_frame (by rw [← hs']; exact hidle)
  have hcount : (tick s').ledCount = s.ledCount := by rw [tick_ledCount, ← hs']; rfl
  have htx := tick_tx s'
  obtain ⟨tx, hdone, hsent⟩ := txByteComplete_iterate_frame (by omega) htx
  have howed := (owed_of_frame_start htx).2
  rw [hcount] at hsent howed
  have hevents := run_completions (s := tick s') (k := 24 * s.ledCount + 1) (rest := rest) (by omega)
    (by simp [CursorInRange, htx]) (by rw [hframe, ← hs']; rfl) (by rw [hframe, ← hs']; exact hrun) howed.ge
  refine ⟨_, run_succ_iff.2 ⟨_, htick, hevents⟩, ?_⟩
  have hwire : (tick s').wire = s.wire := by rw [tick_wire, ← hs']; rfl
  rw [hsent]
  refine ⟨by rw [← hs']; exact tick_leds _, congrArg (· ++ frameOf (tick s')) hwire, ?_, hdone, ?_⟩
  · exact List.length_append.trans (by rw [hwire, frameOf_length, hcount])
  · rw [hframe, ← hs']
    rfl

end Sys2Proof.Machine
end

section
/-! PROOFS. What the commands do and leave alone, said for all seven at once (43_commands.md R190 to R203). -/

namespace Sys2Proof.Machine

variable {s t : State}

/-! ### The two fade commands -/

/-- BEGIN_FADE of one selected LED (40_begin_fade.md R120): the colour at once for duration 0, else a ramp. -/
def startFade (p : Payload) (l : Led) : Led :=
  if p.dur = 0 then setNow (colourOf p) l else rampSetup (colourOf p) p.dur l

theorem startFade_now {p : Payload} (hdur : p.dur = 0) : startFade p = setNow (colourOf p) :=
  funext fun _ => if_pos hdur

theorem startFade_ramp {p : Payload} (hdur : p.dur ≠ 0) : startFade p = rampSetup (colourOf p) p.dur :=
  funext fun _ => if_neg hdur

theorem fadeCommand_now {p : Payload} (hdur : p.dur = 0) (s : State) :
    fadeCommand p s = immediateSet (normalise s.ledCount p.dest).toNat (colourOf p) (stage p s) := by
  rw [fadeCommand_eq, hdur, beginFade_now]

theorem fadeCommand_ramp {p : Payload} (hdur : p.dur ≠ 0) (s : State) :
    fadeCommand p s =
      (stage p s).onLeds (normalise s.ledCount p.dest).toNat (rampSetup (colourOf p) p.dur) := by
  rw [fadeCommand_eq, beginFade_ramp _ _ _ hdur]

/-- A fade command starts a fade on the LEDs its destination selects, and on no other. -/
theorem fadeCommand_leds (p : Payload) (s : State) (j : Nat) :
    (fadeCommand p s).leds[j]? =
      if (normalise s.ledCount p.dest).toNat = 0 ∨ (normalise s.ledCount p.dest).toNat = j + 1 then
        s.leds[j]?.map (startFade p)
      else s.leds[j]? := by
  by_cases hdur : p.dur = 0
  · rw [fadeCommand_now hdur, immediateSet_leds, startFade_now hdur]
    rfl
  · rw [fadeCommand_ramp hdur, State.onLeds_getElem?, startFade_ramp hdur]
    rfl

@[simp] theorem fadeCommand_length (p : Payload) (s : State) :
    (fadeCommand p s).leds.length = s.leds.length := by
  by_cases hdur : p.dur = 0
  · rw [fadeCommand_now hdur]
    exact immediateSet_ledCount _ _ (stage p s)
  · rw [fadeCommand_ramp hdur, State.onLeds_length]
    rfl

/-- Beside the LEDs and the staging record a fade command leaves everything but the transmitter and `WIRE`,
which only an immediate set's handler steps move. -/
theorem fadeCommand_frame (p : Payload) (s : State) :
    fadeCommand p s =
      { s with
        leds := (fadeCommand p s).leds
        stg := ⟨colourOf p, p.dur, normalise s.ledCount p.dest⟩
        tx := (fadeCommand p s).tx
        wire := (fadeCommand p s).wire } :=
  beginFade_frame _ _ (stage p s) p.dur

/-- The transmitter and `WIRE` after a fade command are those the interleaving inside it leaves. -/
theorem fadeCommand_tx_wire (p : Payload) (s : State) :
    let run := microRun (normalise s.ledCount p.dest).toNat (colourOf p) (stage p s)
      (if p.dur = 0 then s.interleave else [])
    (fadeCommand p s).tx = run.tx ∧ (fadeCommand p s).wire = run.wire := by
  by_cases hdur : p.dur = 0
  · rw [fadeCommand_now hdur, if_pos hdur, immediateSet_frame]
    exact ⟨rfl, rfl⟩
  · rw [fadeCommand_ramp hdur, if_neg hdur, State.onLeds_eq]
    exact ⟨rfl, rfl⟩

/-! ### Every command is a fade command, or writes the status report and `RST_ARMED` only -/

theorem after_fadeCommand {i : Instr} {p : Payload} (hi : i = .fade p ∨ i = .fadeAlias p) (s : State) :
    after i s = fadeCommand p (s.withStatus (encode s.cfg i)) := by
  rcases hi with rfl | rfl <;> rfl

theorem after_cases (i : Instr) (s : State) :
    (∃ p, (i = .fade p ∨ i = .fadeAlias p) ∧
      after i s = fadeCommand p (s.withStatus (encode s.cfg i))) ∨
    ((∀ p, i ≠ .fade p ∧ i ≠ .fadeAlias p) ∧
      after i s = (s.withStatus (after i s).status).withRstArmed (after i s).rstArmed) := by
  cases i with
  | fade p => exact .inl ⟨p, .inl rfl, rfl⟩
  | fadeAlias p => exact .inl ⟨p, .inr rfl, rfl⟩
  | _ => exact .inr ⟨fun _ => ⟨nofun, nofun⟩, rfl⟩

theorem after_cfg (i : Instr) (s : State) : (after i s).cfg = s.cfg := by rw [after_frame]

theorem after_faultOverrun (i : Instr) (s : State) : (after i s).faultOverrun = s.faultOverrun := by
  rw [after_frame]

theorem after_replies (i : Instr) (s : State) : (after i s).replies = s.replies := by rw [after_frame]

theorem after_ledCount (i : Instr) (s : State) : (after i s).ledCount = s.ledCount := by
  rcases after_cases i s with ⟨p, -, h⟩ | ⟨-, h⟩ <;> rw [h]
  · exact fadeCommand_length p _
  · rfl

/-- Only ARM_RESET writes `RST_ARMED` (43_commands.md R203). -/
theorem after_rstArmed {i : Instr} (hi : ∀ p, i ≠ .armReset p) (s : State) :
    (after i s).rstArmed = s.rstArmed := by
  cases i with
  | armReset p => exact absurd rfl (hi p)
  | fade p => rw [after, fadeCommand_frame]; rfl
  | fadeAlias p => rw [after, fadeCommand_frame]; rfl
  | _ => rfl

/-! ### The handler steps inside a command -/

/-- The interleaving that takes place inside a command: the environment's for an immediate set, none for
every other command (20_memory.md R77, notes/assumptions/9.md). -/
def interleavingOf (i : Instr) (ms : List Micro) : List Micro :=
  match i with
  | .fade p => if p.dur = 0 then ms else []
  | .fadeAlias p => if p.dur = 0 then ms else []
  | _ => []

theorem interleavingOf_subset (i : Instr) (ms : List Micro) : interleavingOf i ms ⊆ ms := by
  cases i with
  | fade p => simp only [interleavingOf]; split <;> simp
  | fadeAlias p => simp only [interleavingOf]; split <;> simp
  | _ => exact List.nil_subset ms

/-- `DrainBeforeTick` counts the handler steps that take place inside the command. -/
theorem handlerStepsIn_of_decode {c : Config} {bytes : List Byte} {i : Instr} (ms : List Micro)
    (h : decode c bytes = .ok i) : handlerStepsIn c bytes ms = (interleavingOf i ms).count .handler := by
  cases i with
  | fade p => simp only [handlerStepsIn, h, interleavingOf]; split <;> rfl
  | fadeAlias p => simp only [handlerStepsIn, h, interleavingOf]; split <;> rfl
  | _ => simp [handlerStepsIn, h, interleavingOf]

/-- The transmitter and `WIRE` after a command are those the interleaving inside it leaves. -/
theorem after_tx_wire (i : Instr) (s : State) :
    ∃ n target u, u.tx = s.tx ∧ u.wire = s.wire ∧ u.cfg = s.cfg ∧ u.ledCount = s.ledCount ∧
      (after i s).tx = (microRun n target u (interleavingOf i s.interleave)).tx ∧
      (after i s).wire = (microRun n target u (interleavingOf i s.interleave)).wire := by
  cases i with
  | fade p =>
    exact ⟨_, _, stage p (s.withStatus (encode s.cfg (.fade p))), rfl, rfl, rfl, rfl, fadeCommand_tx_wire p _⟩
  | fadeAlias p =>
    exact ⟨_, _, stage p (s.withStatus (encode s.cfg (.fadeAlias p))), rfl, rfl, rfl, rfl,
      fadeCommand_tx_wire p _⟩
  | _ => exact ⟨0, ⟨0, 0, 0⟩, s, rfl, rfl, rfl, rfl, rfl, rfl⟩

/-- A command with no handler step inside, or with the signal masked, leaves the transmitter alone. -/
theorem after_tx_wire_undisturbed {i : Instr}
    (h : Micro.handler ∉ interleavingOf i s.interleave ∨ s.tx.en = false) :
    (after i s).tx = s.tx ∧ (after i s).wire = s.wire := by
  obtain ⟨n, target, u, hutx, huwire, -, -, htx, hwire⟩ := after_tx_wire i s
  obtain ⟨hquiet, hquiet'⟩ := microRun_tx n target u (interleavingOf i s.interleave) (hutx ▸ h.symm)
  exact ⟨htx.trans (hquiet.trans hutx), hwire.trans (hquiet'.trans huwire)⟩

/-- Settles O20: `after_frame` and its companions, for the one state a command leaves. -/
theorem whatNoCommandDoes : Obligations.WhatNoCommandDoes := by
  intro i s t hexec
  rw [exec_eq_after] at hexec
  cases hexec
  refine ⟨fun h => after_tx_wire_undisturbed (h.imp_left (mt (interleavingOf_subset i _ ·))),
    after_faultOverrun i s, after_cfg i s, after_replies i s, ?_, fun hi => after_rstArmed hi s,
    fun hf ha => ?_⟩
  · intro harm
    by_cases hi : ∃ p, i = .armReset p
    · obtain ⟨p, rfl⟩ := hi
      rfl
    · exact (after_rstArmed (fun p hp => hi ⟨p, hp⟩) s).trans harm
  · rcases after_cases i s with ⟨p, hi, -⟩ | ⟨-, h⟩
    · exact absurd hi (by simp [hf, ha])
    · rw [h]
      exact ⟨rfl, rfl⟩

end Sys2Proof.Machine
end

section
/-! PROOFS. The fade arithmetic as the spec states it (40_begin_fade.md R123 to R126, 41_fade_tick.md R142 to
R149). -/

namespace Sys2Proof.Machine

/-! ### The increment -/

/-- Settles O21: the stored increment, its direction bit and its rate, as numbers. -/
theorem incrementIsTheQuotientWithTheDirectionBit :
    Obligations.IncrementIsTheQuotientWithTheDirectionBit := by
  intro target cur dur _
  refine ⟨?_, by rw [direction_increment, decide_eq_true_iff], ?_⟩
  · rw [increment_toNat, distance_eq, Nat.mul_comm _ 256, expectedIncrement]
  · rw [magnitude_increment, distance_eq, Nat.mul_comm _ 256, expectedRate]

/-- The increment of a new fade is the 16-bit form of the expected one (40_begin_fade.md R125). -/
theorem increment_eq_ofNat (target cur : Byte) {dur : Half} (hdur : dur ≠ 0) :
    increment target cur dur = BitVec.ofNat 16 (expectedIncrement target cur dur) := by
  rw [← (incrementIsTheQuotientWithTheDirectionBit target cur dur hdur).1, BitVec.ofNat_toNat,
    BitVec.setWidth_eq]

/-! ### One tick -/

/-- Settles O23: of the three cases of a tick the one with a counter of 1 snaps. -/
theorem finalTickSnapsToTheTarget : Obligations.FinalTickSnapsToTheTarget := by
  intro l hr
  refine ⟨fadeStep_rem_toNat l, fun h₁ => ?_⟩
  have hrem : l.rem - 1 = 0 := sub_eq_zero.2 (BitVec.eq_of_toNat_eq h₁)
  rcases fadeStep_cases l with ⟨h₀, _⟩ | ⟨_, h⟩ | ⟨h₂, _⟩
  · exact absurd h₀ hr
  · rw [h, snap, countDown, hrem]
  · omega

/-- Settles O24: the ramp step of each channel, as numbers. -/
theorem nonFinalTickTakesOneRampStep : Obligations.NonFinalTickTakesOneRampStep := by
  intro l c hr
  obtain ⟨hinc, htgt⟩ := fadeStep_inc_tgt l
  obtain ⟨hcs, hfrac⟩ := fadeStep_get_of_ramp hr c
  refine ⟨hinc, htgt, fadeStep_rem_toNat l, ?_, ?_⟩
  · rw [hfrac, rampFrac_toNat, rampSum_toNat]
  · rw [hcs, rampValue_toNat, rampSum_toNat, direction_eq]
    simp only [decide_eq_true_eq]

/-- Settles O28: on course is kept, and moving towards the target is moving by the direction bit. -/
theorem tickMovesOnlyTowardsTheTarget : Obligations.TickMovesOnlyTowardsTheTarget := by
  intro l h
  obtain ⟨hkeep, hmoves⟩ := fadeStep_onCourse h
  refine ⟨hkeep, fun hr c => ?_⟩
  have hc := hmoves hr c
  rw [MovesTowards] at hc
  exact ⟨fun hd => by rwa [if_pos hd] at hc, fun hd => by rwa [if_neg (by simp [hd])] at hc⟩

/-! ### The closed form of a fade in progress (41_fade_tick.md R148) -/

/-- A channel is `moved` from `start` in the direction `up`, in units of 1/256 of a channel step; the
fraction of a channel on its way down counts downwards. -/
def MovedBy (up : Bool) (start value frac : Byte) (moved : Nat) : Prop :=
  if up then value.toNat * 256 + frac.toNat = start.toNat * 256 + moved
  else value.toNat * 256 + moved = start.toNat * 256 + frac.toNat

/-- A ramp step of a channel on course moves it by its rate. -/
theorem MovedBy.ramp {rem inc : Half} {start frac cur target : Byte} {moved : Nat}
    (hmoved : MovedBy (direction inc) start cur frac moved) (h : ChannelOnCourse rem inc frac cur target)
    (hr : 2 ≤ rem.toNat) :
    MovedBy (direction inc) start (rampValue inc frac cur) (rampFrac inc frac)
      (moved + (magnitude inc).toNat) := by
  have hrate : (magnitude inc).toNat ≤ (magnitude inc).toNat * (rem.toNat - 1) :=
    Nat.le_mul_of_pos_right _ (by omega)
  unfold ChannelOnCourse at h
  unfold MovedBy at hmoved ⊢
  cases hd : direction inc
  case true =>
    simp only [hd, if_true] at h hmoved ⊢
    linarith [ramp_up_fixedPoint (frac := frac) (cur := cur) hd (by omega)]
  case false =>
    simp only [hd, Bool.false_eq_true, if_false] at h hmoved ⊢
    linarith [ramp_down_fixedPoint (frac := frac) (cur := cur) hd (by omega)]

/-- After `k` ticks, before the final one, a channel has moved by `k` times its rate. -/
theorem fade_movedBy {l : Led} {target : Colour} {dur : Half} (c : Channel) {k : Nat} (hk : k < dur.toNat) :
    MovedBy (direction (increment (target.get c) (l.cs.get c) dur)) (l.cs.get c)
      ((fadeStep^[k] (rampSetup target dur l)).cs.get c) ((fadeStep^[k] (rampSetup target dur l)).frac.get c)
      (k * (magnitude (increment (target.get c) (l.cs.get c) dur)).toNat) := by
  have hdur : dur ≠ 0 := BitVec.toNat_ne.2 (by simp; omega)
  induction k with
  | zero =>
    have hfrac : (rampSetup target dur l).frac.get c = 0 := by cases c <;> rfl
    rw [Function.iterate_zero_apply, hfrac]
    simp [MovedBy, rampSetup]
  | succ k ih =>
    obtain ⟨hinc, -⟩ := fadeStep_iterate_inc_tgt (rampSetup target dur l) k
    have hrem := fadeStep_iterate_rem_toNat (rampSetup target dur l) k
    have hleft : (rampSetup target dur l).rem.toNat = dur.toNat := rfl
    have hramping : (fadeStep^[k] (rampSetup target dur l)).rem ≠ 0 := BitVec.toNat_ne.2 (by simp; omega)
    obtain ⟨hcs, hfrac⟩ := fadeStep_get_of_ramp (l := fadeStep^[k] (rampSetup target dur l)) (by omega) c
    have hcourse := ((ledOnCourse_iff _).1
      (fadeStep_iterate_onCourse (rampSetup_onCourse (target := target) (l := l) hdur) k)).resolve_left hramping c
    rw [hinc, rampSetup_inc_get] at hcs hfrac hcourse
    rw [Function.iterate_succ_apply', hcs, hfrac, Nat.succ_mul]
    exact (ih (by omega)).ramp hcourse (by omega)

/-- Settles O27: the fixed-point value has moved by `k` times the rate, and its whole and fractional parts
are the channel's value and fraction. -/
theorem fadeInProgressHasItsClosedForm : Obligations.FadeInProgressHasItsClosedForm := by
  intro l target dur c k hk m now
  have hdur : dur ≠ 0 := BitVec.toNat_ne.2 (by simp; omega)
  have hmoved : MovedBy _ (l.cs.get c) (now.cs.get c) (now.frac.get c) _ := fade_movedBy c hk
  have hm : (magnitude (increment (target.get c) (l.cs.get c) dur)).toNat = m :=
    (incrementIsTheQuotientWithTheDirectionBit _ _ dur hdur).2.2
  have hfrac := (now.frac.get c).isLt
  rw [hm, direction_increment, MovedBy] at hmoved
  refine ⟨fadeStep_iterate_rem_toNat _ k, ?_⟩
  generalize k * m = moved at hmoved
  by_cases hup : (l.cs.get c).toNat < (target.get c).toNat
  · simp only [hup, decide_true, if_true] at hmoved ⊢
    omega
  · simp only [hup, decide_false, Bool.false_eq_true, if_false] at hmoved ⊢
    omega

end Sys2Proof.Machine
end

section
/-! PROOFS. The result of each command: the echo, the ramp set-up, the immediate set, ARM_RESET, VERSION and
READ_LED (43_commands.md R190 to R202, 40_begin_fade.md R120 to R131, 20_memory.md R70 to R77). -/

namespace Sys2Proof.Machine

variable {s t : State}

/-! ### The commands that touch no colour -/

/-- Settles O15: VERSION writes the status report only. -/
theorem versionReportsTheVersionCharacters : Obligations.VersionReportsTheVersionCharacters :=
  fun p s => exec_eq_after (.version p) s

/-- Settles O18: NOP writes the status report only. -/
theorem unrecognisedCommandIsOnlyEchoed : Obligations.UnrecognisedCommandIsOnlyEchoed :=
  fun code p s _ => exec_eq_after (.nop code p) s

/-- READ_LED writes the status report only, with the colour and the index it resolved. -/
theorem exec_readLed {p : Payload} {col : Colour} {n : Byte} (hn : normalise s.ledCount p.dest = n)
    (hcol : readColour n.toNat s = col) :
    exec (.readLed p) s = .next { s with status := ⟨0x01, 0x72, col.r, col.g, col.b, 0x00, 0x00, n⟩ } := by
  subst hn hcol
  exact exec_eq_after (.readLed p) s

/-- The colour READ_LED answers with for an LED of the block (43_commands.md R201). -/
theorem readColour_of_led {n : Nat} {l : Led} (hn : 1 ≤ n) (hl : s.leds[n - 1]? = some l) :
    readColour n s = l.cs := by
  obtain ⟨i, rfl⟩ := Nat.exists_eq_add_of_le' hn
  have hled : s.led? (i + 1) = some l := hl
  rw [readColour, hled]

/-- Settles O16: an index in range names an LED, whose colour is the answer. -/
theorem readLedReportsTheLiveColour : Obligations.ReadLedReportsTheLiveColour :=
  fun _ _ _ hpos hle hl => exec_readLed (if_neg hle.not_gt) (readColour_of_led hpos hl)

/-- Settles O17: the index resolves to 0, which names no LED. -/
theorem readLedOfIndexZeroReportsTheStagingColour :
    Obligations.ReadLedOfIndexZeroReportsTheStagingColour := by
  intro p s hdest
  refine exec_readLed (n := 0) (BitVec.eq_of_toNat_eq ?_) rfl
  rw [normalise_toNat]
  rcases hdest with h | h <;> simp [h]

/-! ### The default echo -/

/-- A well-formed command is encoded with the report identifier exactly when it is accepted (30_encoding.md
R93), for every command. -/
theorem acceptance (i : Instr) : Laws.Acceptance.Statement i := by
  cases i with
  | fade p => exact Laws.Acceptance.fade p
  | fadeAlias p => exact Laws.Acceptance.fadeAlias p
  | armReset p => exact Laws.Acceptance.armReset p
  | version p => exact Laws.Acceptance.version p
  | readLed p => exact Laws.Acceptance.readLed p
  | nop code p => exact Laws.Acceptance.nop code p
  | discard rid code p => exact Laws.Acceptance.discard rid code p

/-- Every accepted command but VERSION and READ_LED leaves its own encoding in the status report
(43_commands.md R191). -/
theorem after_status_echo {i : Instr} (hi : i.accepted = true) (hv : ∀ p, i ≠ .version p)
    (hr : ∀ p, i ≠ .readLed p) (s : State) : (after i s).status = encode s.cfg i := by
  cases i with
  | fade p => rw [after, fadeCommand_frame]; rfl
  | fadeAlias p => rw [after, fadeCommand_frame]; rfl
  | armReset p => rfl
  | version p => exact absurd rfl (hv p)
  | readLed p => exact absurd rfl (hr p)
  | nop code p => rfl
  | discard rid code p => cases hi

/-- A report decodes to the well-formed command that it encodes. -/
theorem decodeReport_eq_of_encode {c : Config} {i : Instr} {r : Report} (hc : c.valid = true)
    (hi : WellFormed c i = true) (h : encode c i = r) : decodeReport c r = i := by
  rw [← h, decodeReport_encode hc hi]

/-- Settles O9: the command's encoding is the report, VERSION and READ_LED write their own bytes over it. -/
theorem acceptedReportIsEchoed : Obligations.AcceptedReportIsEchoed := by
  intro s r ms rest hin hrun hc hid
  obtain ⟨hwf, henc⟩ := encode_decodeReport s.cfg r
  have hfields := reportOf_payloadOf r
  refine ⟨_, (step_event hin hrun).trans (setReport_reportBytes r ms _), fun hv hr => ?_, fun hv => ?_,
    fun hr => ?_⟩
  · have hacc : (decodeReport s.cfg r).accepted = true := (acceptance _ _ hwf).1 (by rw [henc]; exact hid)
    refine (after_status_echo hacc (fun p hp => ?_) (fun p hp => ?_) _).trans henc
    · rw [hp] at henc
      exact hv (congrArg Report.b1 henc).symm
    · rw [hp] at henc
      exact hr (congrArg Report.b1 henc).symm
  · rw [hid, hv] at hfields
    have hdec := decodeReport_eq_of_encode (i := .version (payloadOf r)) hc rfl hfields
    rw [State.withInputs_cfg, hdec]
    show ({ reportOf reportId codeVersion (payloadOf r) with b3 := s.cfg.verHi, b4 := s.cfg.verLo } : Report) = _
    rw [show reportOf reportId codeVersion (payloadOf r) = r from hfields]
  · rw [hid, hr] at hfields
    have hdec := decodeReport_eq_of_encode (i := .readLed (payloadOf r)) hc rfl hfields
    rw [State.withInputs_cfg, hdec]
    exact ⟨hid.symm, hr.symm⟩

/-! ### The fade commands -/

/-- A fade command in full: the echo, the staging record, the LEDs, and what handler steps inside it move. -/
theorem after_fade_frame {i : Instr} {p : Payload} (hi : i = .fade p ∨ i = .fadeAlias p) (s : State) :
    after i s =
      { s with
        leds := (after i s).leds
        stg := ⟨colourOf p, p.dur, normalise s.ledCount p.dest⟩
        status := encode s.cfg i
        tx := (after i s).tx
        wire := (after i s).wire } := by
  rw [after_fadeCommand hi, fadeCommand_frame]
  rfl

theorem after_fade_leds {i : Instr} {p : Payload} (hi : i = .fade p ∨ i = .fadeAlias p) (s : State) (j : Nat) :
    (after i s).leds[j]? =
      if (normalise s.ledCount p.dest).toNat = 0 ∨ (normalise s.ledCount p.dest).toNat = j + 1 then
        s.leds[j]?.map (startFade p)
      else s.leds[j]? := by
  rw [after_fadeCommand hi, fadeCommand_leds]
  rfl

theorem after_fade_stg {i : Instr} {p : Payload} (hi : i = .fade p ∨ i = .fadeAlias p) (s : State) :
    (after i s).stg = ⟨colourOf p, p.dur, normalise s.ledCount p.dest⟩ := by
  rw [after_fade_frame hi]

/-- The byte at a frame offset depends on the colour of its own LED only. -/
theorem State.csByte_of_same_led {k : Nat}
    (h : t.leds[k / 3]?.map (·.cs) = s.leds[k / 3]?.map (·.cs)) : t.csByte k = s.csByte k := by
  rw [State.csByte_eq, State.csByte_eq]
  cases ht : t.leds[k / 3]? <;> cases hs : s.leds[k / 3]? <;> simp_all

/-- The echo of a fade command, byte by byte (43_commands.md R191). -/
theorem encode_fade_command {i : Instr} {code : Byte} {p : Payload} {c : Config}
    (hi : i = .fade p ∧ code = c.codeFade ∨ i = .fadeAlias p ∧ code = c.codeFadeAlias) :
    (i = .fade p ∨ i = .fadeAlias p) ∧ encode c i =
      ⟨0x01, code, p.red, p.grn, p.blu, p.dur.extractLsb' 8 8, p.dur.extractLsb' 0 8, p.dest⟩ := by
  rcases hi with ⟨rfl, rfl⟩ | ⟨rfl, rfl⟩
  · exact ⟨.inl rfl, rfl⟩
  · exact ⟨.inr rfl, rfl⟩

/-- No handler step takes place inside a fade command with a duration. -/
theorem interleavingOf_ramp {i : Instr} {p : Payload} (hi : i = .fade p ∨ i = .fadeAlias p) (hdur : p.dur ≠ 0)
    (ms : List Micro) : interleavingOf i ms = [] := by
  rcases hi with rfl | rfl <;> exact if_neg hdur

/-- Settles O10: the selected LEDs take the ramp set-up, and nothing else but echo and staging is written. -/
theorem fadeWithDurationSetsUpTheRamp : Obligations.FadeWithDurationSetsUpTheRamp := by
  intro i code p s hi hdur
  obtain ⟨hi, hecho⟩ := encode_fade_command hi
  obtain ⟨htx, hwire⟩ := after_tx_wire_undisturbed (s := s) (i := i)
    (.inl (by simp [interleavingOf_ramp hi hdur]))
  have hleds := after_fade_leds hi s
  rw [startFade_ramp hdur] at hleds
  refine ⟨_, exec_eq_after i s, ?_, ?_, ?_, ?_, ?_, after_ledCount i s, fun k => ?_, fun j l hl => ?_⟩
  · rw [after_fade_frame hi, htx, hwire]
  · rw [after_fade_frame hi, hecho]
  · rw [after_fade_stg hi]; rfl
  · rw [after_fade_stg hi]
  · rw [after_fade_stg hi]; exact normalise_toNat _ _
  · refine State.csByte_of_same_led ?_
    rw [hleds]
    split
    · rw [Option.map_map]; rfl
    · rfl
  · rw [after_fade_stg hi, hleds, hl]
    split
    · simp only [← increment_eq_ofNat _ _ hdur]
      rfl
    · rfl

/-- Settles O11: the selected LEDs take the colour, whatever the interleaving did before the last writes. -/
theorem fadeWithDurationZeroSetsTheColourNow : Obligations.FadeWithDurationZeroSetsTheColourNow := by
  intro i code p s hi hdur
  obtain ⟨hi, hecho⟩ := encode_fade_command hi
  have hleds := after_fade_leds hi s
  rw [startFade_now hdur] at hleds
  refine ⟨_, exec_eq_after i s, ?_, fun h => ?_, ?_, ?_, ?_, ?_, after_ledCount i s, fun k hk => ?_,
    fun j l hl => ?_⟩
  · rw [after_fade_frame hi]
  · exact after_tx_wire_undisturbed (h.symm.imp_left (mt (interleavingOf_subset i _ ·)))
  · rw [after_fade_frame hi, hecho, hdur]; rfl
  · rw [after_fade_stg hi]; rfl
  · rw [after_fade_stg hi]; exact hdur
  · rw [after_fade_stg hi]; exact normalise_toNat _ _
  · rw [after_fade_stg hi, ledOfOffset, Nat.add_comm 1] at hk
    exact State.csByte_of_same_led (by rw [hleds, if_neg hk])
  · rw [after_fade_stg hi, hleds, hl]
    split <;> rfl

/-! ### The same command twice -/

/-- A ramp is set up from the colour an LED shows, and from nothing else of it (40_begin_fade.md R130). -/
theorem map_rampSetup_eq (target : Colour) (dur : Half) (x : Option Led) :
    x.map (rampSetup target dur) =
      (x.map (·.cs)).map fun c => rampSetup target dur { ledReset with cs := c } := by
  cases x <;> rfl

theorem startFade_startFade (p : Payload) (l : Led) : startFade p (startFade p l) = startFade p l := by
  by_cases hdur : p.dur = 0
  · rw [startFade_now hdur]
    rfl
  · rw [startFade_ramp hdur]
    rfl

theorem after_fade_twice_leds {i : Instr} {p : Payload} (hi : i = .fade p ∨ i = .fadeAlias p) (s : State) :
    (after i (after i s)).leds = (after i s).leds := by
  refine List.ext_getElem? fun j => ?_
  rw [after_fade_leds hi, after_ledCount, after_fade_leds hi]
  split
  · rw [Option.map_map]
    exact congrArg (s.leds[j]?.map ·) (funext (startFade_startFade p))
  · rfl

/-- A repeated fade command changes at most what its handler steps move. -/
theorem after_fade_twice {i : Instr} {p : Payload} (hi : i = .fade p ∨ i = .fadeAlias p) (s : State) :
    { after i (after i s) with tx := (after i s).tx, wire := (after i s).wire } = after i s := by
  rw [after_fade_frame hi (after i s), after_fade_twice_leds hi, after_ledCount, after_cfg]
  conv_rhs => rw [after_fade_frame hi s]
  rw [after_fade_frame hi s]

/-- A destination selects an LED exactly if it is normalised to the broadcast selector or to the LED's index
(30_encoding.md R99, 40_begin_fade.md R128). -/
theorem selects_iff (ledCount : Nat) (raw : Byte) (n : Nat) : Selects ledCount raw n = true ↔
    (normalise ledCount raw).toNat = 0 ∨ (normalise ledCount raw).toNat = n := by
  simp only [Selects, Bool.or_eq_true, beq_iff_eq, decide_eq_true_eq, normalise_toNat]
  split <;> omega

/-- Settles O29: starting a fade twice is starting it once, and a ramp starts from the colour shown. -/
theorem aNewFadeForgetsTheOldOne : Obligations.ANewFadeForgetsTheOldOne := by
  intro i p s t hi hexec
  rw [exec_eq_after] at hexec
  cases hexec
  have hsame := after_fade_twice hi s
  refine ⟨⟨_, exec_eq_after i _, hsame, fun hquiet => ?_⟩, fun s' t' hdur hcs hexec' j hj => ?_⟩
  · have hquiet' : Micro.handler ∉ interleavingOf i s.interleave ∨ s.tx.en = false := by
      rcases hquiet with hdur | hms | hidle
      · exact .inl (by simp [interleavingOf_ramp hi hdur])
      · exact .inl (mt (interleavingOf_subset i _ ·) hms)
      · exact .inr hidle
    have hms : (after i s).interleave = s.interleave := by rw [after_frame]
    have hfirst := after_tx_wire_undisturbed hquiet'
    have hsecond := after_tx_wire_undisturbed (s := after i s) (i := i) (by rwa [hms, hfirst.1])
    rw [← hsecond.1, ← hsecond.2] at hsame
    exact hsame
  · rw [exec_eq_after] at hexec'
    cases hexec'
    have hcount : s.ledCount = s'.ledCount := by simpa [State.ledCount] using congrArg List.length hcs
    have hj' := (selects_iff _ _ _).1 hj
    have hled := congrArg (·[j]?) hcs
    simp only [List.getElem?_map] at hled
    rw [after_fade_leds hi, after_fade_leds hi, ← hcount, if_pos hj', if_pos hj', startFade_ramp hdur,
      map_rampSetup_eq, map_rampSetup_eq, hled]

/-! ### Byte by byte -/

/-- During an immediate set a byte is as before, or covered and new. -/
theorem microRun_csByte (n : Nat) (target : Colour) (s : State) (ms : List Micro) {k : Nat}
    (hk : k < 3 * s.ledCount) :
    (microRun n target s ms).csByte k = s.csByte k ∨
      (n = 0 ∨ n = ledOfOffset k) ∧ (microRun n target s ms).csByte k = target.get (channelOfOffset k) := by
  refine (microRun_induction n target s (P := fun t => t.ledCount = s.ledCount ∧
    (t.csByte k = s.csByte k ∨ (n = 0 ∨ n = ledOfOffset k) ∧ t.csByte k = target.get (channelOfOffset k)))
    ?_ ?_ ms ⟨rfl, .inl rfl⟩).2
  · rintro t ⟨hcount, ht⟩
    rw [txByteComplete_ledCount, State.csByte_congr (t := t) (by rw [txByteComplete_leds])]
    exact ⟨hcount, ht⟩
  · rintro t j hj ⟨hcount, ht⟩
    rw [State.writeCsByte_ledCount, State.csByte_writeCsByte _ _ _ _ (by omega)]
    refine ⟨hcount, ?_⟩
    split
    · rename_i hkj
      subst hkj
      exact .inr ⟨by simpa [covers] using hj, rfl⟩
    · exact ht

/-- Settles O13: a byte that is new is new also as the old byte of the writes still to come. -/
theorem bytesDuringAnImmediateSetAreOldOrNew : Obligations.BytesDuringAnImmediateSetAreOldOrNew := by
  intro n target s done todo k hk
  refine ⟨microRun_csByte n target s done hk, fun _ hnew => ?_⟩
  have hcount : (microRun n target s done).ledCount = s.ledCount := microRun_length n target s done
  rw [microRun_append]
  rcases microRun_csByte n target (microRun n target s done) todo (hcount ▸ hk) with h | ⟨-, h⟩
  · exact h.trans hnew
  · exact h

/-! ### An armed block goes on as before -/

section Unread

variable {g : State → State} (hg : UnreadUpdate g)
include hg

theorem UnreadUpdate.onLeds (s : State) (n : Nat) (f : Led → Led) : (g s).onLeds n f = g (s.onLeds n f) := by
  cases n <;> simp only [State.onLeds, hg.leds, hg.withLeds]

theorem UnreadUpdate.microRun (n : Nat) (target : Colour) (s : State) (ms : List Micro) :
    microRun n target (g s) ms = g (microRun n target s ms) := by
  refine List.foldl_hom g fun u m => ?_
  cases m with
  | handler => exact hg.txByteComplete u
  | write k =>
    simp only [microStep]
    split
    · exact hg.onLeds u _ _
    · rfl

theorem UnreadUpdate.fadeCommand (p : Payload) (s : State) : fadeCommand p (g s) = g (fadeCommand p s) := by
  have hcount : (g s).ledCount = s.ledCount := congrArg List.length (hg.leds s)
  have hstage : stage p (g s) = g (stage p s) := by rw [stage, hcount, hg.withStg, stage]
  by_cases hdur : p.dur = 0
  · rw [fadeCommand_now hdur, fadeCommand_now hdur, hcount, hstage, immediateSet, hg.interleave, hg.microRun,
      hg.onLeds, immediateSet]
  · rw [fadeCommand_ramp hdur, fadeCommand_ramp hdur, hcount, hstage, hg.onLeds]

end Unread

theorem unreadUpdate_withRstArmed (x : Bool) : UnreadUpdate (State.withRstArmed · x) :=
  ⟨fun _ => rfl, fun _ => rfl, fun _ => rfl, fun _ => rfl, fun _ => rfl, fun _ _ => rfl, fun _ _ => rfl,
    fun _ _ => rfl, fun _ _ => rfl⟩

/-- An armed block executes every command as an unarmed one does. -/
theorem after_armed (i : Instr) (s : State) :
    after i (s.withRstArmed true) = (after i s).withRstArmed true := by
  have hfade := (unreadUpdate_withRstArmed true).fadeCommand
  cases i with
  | fade p => exact hfade p (s.withStatus (encode s.cfg (.fade p)))
  | fadeAlias p => exact hfade p (s.withStatus (encode s.cfg (.fadeAlias p)))
  | _ => rfl

/-- An armed block takes every event but RESET and RESTART as an unarmed one does (43_commands.md R198). -/
theorem step_armed {e : Event} {rest : List Event} (hin : s.inputs = e :: rest) (hreset : IsReset e = false)
    (h : step s = .next t) : step (s.withRstArmed true) = .next (t.withRstArmed true) := by
  have hin' : (s.withRstArmed true).inputs = e :: rest := hin
  rcases step_cases h with ⟨hnil, -⟩ | ⟨e', rest', hcons, hcases⟩
  · rw [hin] at hnil
    cases hnil
  rw [hin] at hcons
  cases hcons
  rcases hcases with ⟨rfl, -⟩ | ⟨hrun, hcases⟩
  · cases hreset
  rw [step_event hin' hrun]
  rcases hcases with ⟨bytes, ms, i, rfl, hdec, rfl⟩ | ⟨rfl, rfl⟩ | ⟨rfl, rfl⟩ | ⟨rfl, hen, rfl⟩ | ⟨rfl, -⟩
  · rw [deliverRunning, setReport_of_decode (s := (s.withRstArmed true).withInputs rest) ms hdec, exec_eq_after]
    exact congrArg _ (after_armed i ((s.withInputs rest).withInterleave ms))
  · rfl
  · rw [deliverRunning, tick_eq, tick_eq]
    rfl
  · rw [completion_enabled (s.withRstArmed true) rest hen]
    exact congrArg _ ((unreadUpdate_withRstArmed true).txByteComplete (s.withInputs rest))
  · cases hreset

/-- Settles O14: ARM_RESET writes two fields, and no event but RESET and RESTART reads `RST_ARMED`. -/
theorem armResetArmsTheRestart : Obligations.ArmResetArmsTheRestart := by
  refine fun p s => ⟨exec_eq_after (.armReset p) s, fun t ht => ?_, fun t e rest hin hreset ht => ?_⟩
  · rw [exec_eq_after] at ht
    cases ht
    rfl
  · exact step_armed hin hreset ht

end Sys2Proof.Machine
end

section
/-! PROOFS. What every step keeps: the parameters, the invariant, the sticky bits, the status report, and the
length of a frame (10_state.md R43, 42_transmitter.md R172, 70_reset_and_hazards.md section 2). -/

namespace Sys2Proof.Machine

variable {s t : State}

/-! ### The handler steps of an interleaving -/

/-- An interleaving keeps the cursor in range and the total of the bytes sent and owed; its handler steps
are taken off the completions owed (20_memory.md R78, 42_transmitter.md R172). -/
theorem microRun_counts (n : Nat) (target : Colour) (ms : List Micro) (hn : s.ledCount ≤ 255)
    (h : CursorInRange s) :
    CursorInRange (microRun n target s ms) ∧
      (microRun n target s ms).wire.length + bytesOwed (microRun n target s ms) =
        s.wire.length + bytesOwed s ∧
      completionsOwed (microRun n target s ms) = completionsOwed s - ms.count .handler := by
  induction ms generalizing s with
  | nil => exact ⟨h, rfl, rfl⟩
  | cons m ms ih =>
    rw [microRun_cons]
    cases m with
    | handler =>
      obtain ⟨hcur, hbytes, howed⟩ := txByteComplete_counts hn h
      obtain ⟨hcur', hbytes', howed'⟩ := ih (s := txByteComplete s) (by simpa using hn) hcur
      refine ⟨hcur', hbytes'.trans hbytes, howed'.trans ?_⟩
      rw [howed, List.count_cons_self, Nat.sub_sub, Nat.add_comm]
    | write k =>
      have hsame : (microStep n target s (.write k)).tx = s.tx ∧
          (microStep n target s (.write k)).wire = s.wire ∧
          (microStep n target s (.write k)).ledCount = s.ledCount := by
        simp only [microStep]
        split <;> simp
      obtain ⟨htx, hwire, hcount⟩ := hsame
      have hrest := ih (hcount.trans_le hn) ((cursorInRange_congr htx hcount).2 h)
      rw [bytesOwed_congr htx hcount, completionsOwed_congr htx hcount, hwire] at hrest
      rwa [List.count_cons_of_ne (a := Micro.handler) (b := .write k) nofun]

/-- A command keeps the cursor in range and the total of the bytes sent and owed; the handler steps inside
it are taken off the completions owed. -/
theorem after_counts (i : Instr) (hn : s.ledCount ≤ 255) (h : CursorInRange s) :
    CursorInRange (after i s) ∧
      (after i s).wire.length + bytesOwed (after i s) = s.wire.length + bytesOwed s ∧
      completionsOwed (after i s) = completionsOwed s - (interleavingOf i s.interleave).count .handler := by
  obtain ⟨n, target, u, hutx, huwire, -, hucount, htx, hwire⟩ := after_tx_wire i s
  have hrun := microRun_counts n target (interleavingOf i s.interleave) (hucount.trans_le hn)
    ((cursorInRange_congr hutx hucount).2 h)
  have hcount : (after i s).ledCount = (microRun n target u (interleavingOf i s.interleave)).ledCount :=
    (after_ledCount i s).trans (hucount.symm.trans (microRun_length n target u _).symm)
  rw [cursorInRange_congr htx hcount, bytesOwed_congr htx hcount, completionsOwed_congr htx hcount, hwire]
  rwa [bytesOwed_congr hutx hucount, completionsOwed_congr hutx hucount, huwire] at hrun

/-! ### The wire -/

/-- `t` has appended to the wire of `s`, and only the sanctioned pattern bytes (30_encoding.md R96). -/
def AppendsPatterns (s t : State) : Prop :=
  ∃ sent, t.wire = s.wire ++ sent ∧ ∀ x ∈ sent, x = s.cfg.pat1 ∨ x = s.cfg.pat0

theorem appendsPatterns_of_wire_eq (h : t.wire = s.wire) : AppendsPatterns s t := ⟨[], by simp [h], by simp⟩

theorem AppendsPatterns.txByteComplete (hcfg : t.cfg = s.cfg) (h : AppendsPatterns s t) :
    AppendsPatterns s (txByteComplete t) := by
  obtain ⟨sent, hwire, hsent⟩ := h
  obtain ⟨sent', hwire', -, hsent'⟩ := txByteComplete_wire t
  refine ⟨sent ++ sent', by rw [hwire', hwire, List.append_assoc], fun x hx => ?_⟩
  rcases List.mem_append.1 hx with hx | hx
  · exact hsent x hx
  · rw [← hcfg]
    exact hsent' x hx

theorem microRun_appendsPatterns (n : Nat) (target : Colour) (s : State) (ms : List Micro) :
    AppendsPatterns s (microRun n target s ms) :=
  (microRun_induction n target s (P := fun t => t.cfg = s.cfg ∧ AppendsPatterns s t)
    (fun t ⟨hcfg, h⟩ => ⟨by simpa using hcfg, h.txByteComplete hcfg⟩)
    (fun t k _ ⟨hcfg, h⟩ => ⟨by simpa using hcfg, by simpa [AppendsPatterns] using h⟩) ms
    ⟨rfl, appendsPatterns_of_wire_eq rfl⟩).2

theorem after_appendsPatterns (i : Instr) (s : State) : AppendsPatterns s (after i s) := by
  obtain ⟨n, target, u, -, huwire, hucfg, -, -, hwire⟩ := after_tx_wire i s
  obtain ⟨sent, hrun, hsent⟩ := microRun_appendsPatterns n target u (interleavingOf i s.interleave)
  exact ⟨sent, by rw [hwire, hrun, huwire], hucfg ▸ hsent⟩

/-! ### A step whose event is known -/

/-- What a step has done with the event at the head of the queue. -/
theorem step_event_cases {e : Event} {rest : List Event} (hin : s.inputs = e :: rest) (h : step s = .next t) :
    (e = .reset ∧ t = resetBlock (s.withInputs rest)) ∨
    (∃ bytes ms i, e = .setReport bytes ms ∧ decode s.cfg bytes = .ok i ∧
      t = after i ((s.withInputs rest).withInterleave ms)) ∨
    (e = .getReport ∧ t = getReport (s.withInputs rest)) ∨
    (e = .tick ∧ t = tick (s.withInputs rest)) ∨
    (e = .txByteComplete ∧ t = txByteComplete (s.withInputs rest)) ∨
    (e = .restart ∧ t = (resetBlock (s.withInputs rest)).withInBootloader true) := by
  rcases step_cases h with ⟨hnil, -⟩ | ⟨e', rest', hcons, hcases⟩
  · rw [hin] at hnil
    cases hnil
  · rw [hin] at hcons
    cases hcons
    rcases hcases with hreset | ⟨-, hreport | hget | htick | ⟨he, -, ht⟩ | ⟨he, -, ht⟩⟩
    · exact .inl hreset
    · exact .inr (.inl hreport)
    · exact .inr (.inr (.inl hget))
    · exact .inr (.inr (.inr (.inl htick)))
    · exact .inr (.inr (.inr (.inr (.inl ⟨he, ht⟩))))
    · exact .inr (.inr (.inr (.inr (.inr ⟨he, ht⟩))))

/-- What holds of a step that waits and of every step that takes an event off holds of every step. -/
theorem step_keeps {P : State → State → Prop} (hwait : ∀ s, P s s)
    (hevent : ∀ s t e rest, s.inputs = e :: rest → step s = .next t → P s t) (h : step s = .next t) :
    P s t := by
  cases hin : s.inputs with
  | nil =>
    rw [blockWaitsForAnEvent s hin] at h
    cases h
    exact hwait s
  | cons e rest => exact hevent s t e rest hin h

/-- Settles O46: no operation writes the parameters or changes the number of LEDs. -/
theorem noStepChangesTheParameters : Obligations.NoStepChangesTheParameters := by
  intro s t h
  refine step_keeps (P := fun s t => t.cfg = s.cfg ∧ t.ledCount = s.ledCount) (fun _ => ⟨rfl, rfl⟩)
    (fun s t e rest hin h => ?_) h
  rcases step_event_cases hin h with
    ⟨-, rfl⟩ | ⟨_, ms, i, -, -, rfl⟩ | ⟨-, rfl⟩ | ⟨-, rfl⟩ | ⟨-, rfl⟩ | ⟨-, rfl⟩
  · exact ⟨rfl, resetBlock_ledCount _⟩
  · exact ⟨after_cfg _ _, after_ledCount _ _⟩
  · exact ⟨rfl, rfl⟩
  · exact ⟨by rw [tick_eq]; rfl, tick_ledCount _⟩
  · exact ⟨txByteComplete_cfg _, txByteComplete_ledCount _⟩
  · exact ⟨rfl, resetBlock_ledCount _⟩

/-- Settles O37: handler steps append patterns, inside a command and outside, and nothing else writes the
wire. -/
theorem onlyPatternBytesReachTheWire : Obligations.OnlyPatternBytesReachTheWire := by
  intro s t e rest hin hreset h
  rcases step_event_cases hin h with
    ⟨rfl, -⟩ | ⟨_, ms, i, -, -, rfl⟩ | ⟨-, rfl⟩ | ⟨-, rfl⟩ | ⟨-, rfl⟩ | ⟨rfl, -⟩
  · cases hreset
  · exact after_appendsPatterns i ((s.withInputs rest).withInterleave ms)
  · exact appendsPatterns_of_wire_eq rfl
  · exact appendsPatterns_of_wire_eq (tick_wire _)
  · exact (appendsPatterns_of_wire_eq (s := s) (t := s.withInputs rest) rfl).txByteComplete rfl
  · cases hreset

/-- Settles O40: beside RESET and RESTART only commands write the status report. -/
theorem statusPersistsUntilTheNextSet : Obligations.StatusPersistsUntilTheNextSet := by
  intro s t e rest hin h hreset hset
  rcases step_event_cases hin h with
    ⟨rfl, -⟩ | ⟨bytes, ms, i, rfl, -, -⟩ | ⟨-, rfl⟩ | ⟨-, rfl⟩ | ⟨-, rfl⟩ | ⟨rfl, -⟩
  · cases hreset
  · exact absurd rfl (hset bytes ms)
  · rfl
  · rw [tick_eq]
    rfl
  · exact txByteComplete_status _
  · cases hreset

/-! ### The sticky bits -/

/-- Only a TICK during a frame sets `FAULT_OVERRUN` (70_reset_and_hazards.md R262). -/
theorem step_faultOverrun {e : Event} {rest : List Event} (hin : s.inputs = e :: rest) (h : step s = .next t)
    (hset : t.faultOverrun = true) : s.faultOverrun = true ∨ e = .tick ∧ s.tx.en = true := by
  rcases step_event_cases hin h with
    ⟨-, rfl⟩ | ⟨_, ms, i, -, -, rfl⟩ | ⟨-, rfl⟩ | ⟨rfl, rfl⟩ | ⟨-, rfl⟩ | ⟨-, rfl⟩
  · cases hset
  · rw [after_faultOverrun] at hset
    exact .inl hset
  · exact .inl hset
  · rw [tick_eq] at hset
    exact (Bool.or_eq_true_iff.1 hset).symm.imp_right fun hen => ⟨rfl, hen⟩
  · rw [txByteComplete_faultOverrun] at hset
    exact .inl hset
  · cases hset

/-- A step that is no reset keeps `RST_ARMED`, or is an ARM_RESET command, which sets it; and keeps
`FAULT_OVERRUN` if it is set. -/
theorem step_sticky {e : Event} {rest : List Event} (hin : s.inputs = e :: rest) (hreset : IsReset e = false)
    (h : step s = .next t) :
    (t.rstArmed = s.rstArmed ∨
      t.rstArmed = true ∧ ∃ bytes ms p, e = .setReport bytes ms ∧ decode s.cfg bytes = .ok (.armReset p)) ∧
    (s.faultOverrun = true → t.faultOverrun = true) := by
  rcases step_event_cases hin h with
    ⟨rfl, -⟩ | ⟨bytes, ms, i, rfl, hdec, rfl⟩ | ⟨-, rfl⟩ | ⟨-, rfl⟩ | ⟨-, rfl⟩ | ⟨rfl, -⟩
  · cases hreset
  · refine ⟨?_, fun hf => (after_faultOverrun _ _).trans hf⟩
    by_cases hi : ∃ p, i = .armReset p
    · obtain ⟨p, rfl⟩ := hi
      exact .inr ⟨rfl, bytes, ms, p, rfl, hdec⟩
    · exact .inl (after_rstArmed (fun p hp => hi ⟨p, hp⟩) _)
  · exact ⟨.inl rfl, id⟩
  · rw [tick_eq]
    exact ⟨.inl rfl, fun hf => by simp [hf]⟩
  · exact ⟨.inl (txByteComplete_rstArmed _), fun hf => (txByteComplete_faultOverrun _).trans hf⟩
  · cases hreset

/-- Settles O43: no operation but the reset of the block clears either bit. -/
theorem stickyBitsAreClearedOnlyByReset : Obligations.StickyBitsAreClearedOnlyByReset := by
  intro s t e rest hin hreset h
  obtain ⟨harm, hfault⟩ := step_sticky hin hreset h
  refine ⟨fun hs => ?_, hfault, fun ht hs => ?_, fun ht hs => ?_⟩
  · rcases harm with harm | ⟨harm, -⟩
    · exact harm.trans hs
    · exact harm
  · rcases harm with harm | ⟨-, hcommand⟩
    · rw [harm, hs] at ht
      cases ht
    · exact hcommand
  · exact (step_faultOverrun hin h ht).resolve_left (by simp [hs])

/-! ### TICK -/

/-- Settles O30: a TICK in full, with no overrun to mark. -/
theorem tickAdvancesEveryLedAndArmsTheTransmitter :
    Obligations.TickAdvancesEveryLedAndArmsTheTransmitter := by
  intro s rest hin hrun hidle
  refine ⟨_, step_event hin hrun, ?_, ?_⟩
  · rw [tick_eq, State.withInputs_tx, hidle]
    rfl
  · rw [tick_leds, List.map_map]
    exact List.map_congr_left fun l _ => Prod.ext (fadeStep_inc_tgt l).1 (fadeStep_inc_tgt l).2

/-- Settles O31: the overrun mark is `TX_EN` at the TICK, or an earlier mark. -/
theorem tickWhileStreamingIsTheOverrunFault : Obligations.TickWhileStreamingIsTheOverrunFault := by
  intro s rest hin hrun hen
  have hmark : (tick (s.withInputs rest)).faultOverrun = true := by
    rw [tick_eq, State.withInputs_tx, hen]
    rfl
  exact ⟨_, step_event hin hrun, hmark, if_pos hmark⟩

/-! ### The invariant -/

theorem setNow_onCourse (target : Colour) (l : Led) : LedOnCourse (setNow target l) := .inl rfl

theorem startFade_onCourse (p : Payload) (l : Led) : LedOnCourse (startFade p l) := by
  by_cases hdur : p.dur = 0
  · rw [startFade_now hdur]
    exact setNow_onCourse _ l
  · rw [startFade_ramp hdur]
    exact rampSetup_onCourse hdur

/-- Every LED after a fade command is one from before, or one on which the command started a fade. -/
theorem fadeCommand_onCourse (p : Payload) (h : ∀ l ∈ s.leds, LedOnCourse l) :
    ∀ l ∈ (fadeCommand p s).leds, LedOnCourse l := by
  intro l hl
  obtain ⟨j, hj⟩ := List.mem_iff_getElem?.1 hl
  rw [fadeCommand_leds] at hj
  split at hj
  · obtain ⟨l₀, -, rfl⟩ := Option.map_eq_some_iff.1 hj
    exact startFade_onCourse p l₀
  · exact h l (List.mem_of_getElem? hj)

/-- The reset state of any block with legal parameters is a good one. -/
theorem resetWith_inv {c : Config} {ledCount : Nat} (hc : c.valid = true) (hpos : 1 ≤ ledCount)
    (hn : ledCount ≤ 255) : (State.resetWith c ledCount).Inv := by
  have hcount : (State.resetWith c ledCount).ledCount = ledCount := List.length_replicate
  refine ⟨hc, hpos.trans hcount.ge, hcount.trans_le hn, ⟨Nat.zero_le _, Nat.zero_le _, fun h => absurd rfl h⟩,
    Nat.zero_le _, fun l hl => ?_⟩
  obtain rfl := List.eq_of_mem_replicate hl
  exact .inl rfl

theorem resetBlock_inv (h : s.Inv) : (resetBlock s).Inv := by
  obtain ⟨hc, hpos, hn, -⟩ := h
  exact resetWith_inv hc hpos hn

theorem after_inv (i : Instr) (h : s.Inv) : (after i s).Inv := by
  obtain ⟨hc, hpos, hn, hcur, hdest, hleds⟩ := h
  have hcount := after_ledCount i s
  refine ⟨(after_cfg i s).symm ▸ hc, by omega, by omega, (after_counts i hn hcur).1, ?_⟩
  rcases after_cases i s with ⟨p, -, hi⟩ | ⟨-, hi⟩
  · rw [hcount, hi, fadeCommand_frame]
    exact ⟨normalise_le _ _, fadeCommand_onCourse p hleds⟩
  · rw [hi]
    exact ⟨hdest, hleds⟩

theorem txByteComplete_inv (h : s.Inv) : (txByteComplete s).Inv := by
  obtain ⟨hc, hpos, hn, hcur, hdest, hleds⟩ := h
  simp only [State.Inv, txByteComplete_cfg, txByteComplete_ledCount, txByteComplete_stg, txByteComplete_leds]
  exact ⟨hc, hpos, hn, (txByteComplete_counts hn hcur).1, hdest, hleds⟩

theorem tick_inv (h : s.Inv) : (tick s).Inv := by
  obtain ⟨hc, hpos, hn, -, hdest, hleds⟩ := h
  refine ⟨by rwa [tick_eq], by rwa [tick_ledCount], by rwa [tick_ledCount], by simp [CursorInRange, tick_tx],
    by rw [tick_ledCount, tick_eq]; exact hdest, fun l hl => ?_⟩
  rw [tick_leds] at hl
  obtain ⟨l₀, h₀, rfl⟩ := List.mem_map.1 hl
  exact (fadeStep_onCourse (hleds l₀ h₀)).1

/-- Settles O45: each event's operation keeps the invariant. -/
theorem everyStepKeepsTheInvariant : Obligations.EveryStepKeepsTheInvariant := by
  intro s t hinv h
  refine step_keeps (P := fun s t => s.Inv → t.Inv) (fun _ => id) (fun s t e rest hin h hinv => ?_) h hinv
  have hinv' : (s.withInputs rest).Inv := hinv
  rcases step_event_cases hin h with
    ⟨-, rfl⟩ | ⟨_, ms, i, -, -, rfl⟩ | ⟨-, rfl⟩ | ⟨-, rfl⟩ | ⟨-, rfl⟩ | ⟨-, rfl⟩
  · exact resetBlock_inv hinv'
  · exact after_inv i (s := (s.withInputs rest).withInterleave ms) hinv
  · exact hinv
  · exact tick_inv hinv'
  · exact txByteComplete_inv hinv'
  · exact resetBlock_inv hinv'

/-- Settles O44: the reset state is dark, idle and staged to no LED, for every legal choice. -/
theorem resetStateMeetsTheInvariant : Obligations.ResetStateMeetsTheInvariant :=
  ⟨resetWith_inv (by decide) (by decide) (by decide), fun _ _ => resetWith_inv⟩

/-! ### The length of a frame -/

/-- Settles O36: handler steps keep the total of the bytes sent and owed, inside a command and outside, and a
frame starts with the whole Color Store owed. -/
theorem frameLengthSurvivesEveryCommand : Obligations.FrameLengthSurvivesEveryCommand := by
  rintro s t e rest ⟨-, -, hn, hcur, -, -⟩ hin h
  rcases step_event_cases hin h with
    ⟨rfl, -⟩ | ⟨_, ms, i, rfl, -, rfl⟩ | ⟨rfl, rfl⟩ | ⟨rfl, rfl⟩ | ⟨rfl, rfl⟩ | ⟨rfl, -⟩
  · exact ⟨nofun, nofun⟩
  · exact ⟨fun _ => (after_counts i (s := (s.withInputs rest).withInterleave ms) hn hcur).2.1, nofun⟩
  · exact ⟨fun _ => rfl, nofun⟩
  · refine ⟨nofun, fun _ _ => ⟨tick_wire _, ?_⟩⟩
    rw [(owed_of_frame_start (tick_tx _)).1, tick_ledCount, State.withInputs_ledCount]
  · exact ⟨fun _ => (txByteComplete_counts (s := s.withInputs rest) hn hcur).2.1, nofun⟩
  · exact ⟨nofun, nofun⟩

end Sys2Proof.Machine
end

section
/-! PROOFS. Whole runs under the premise `DrainBeforeTick` (70_reset_and_hazards.md section 2): no TICK overruns,
and a fade that a report asks for arrives (41_fade_tick.md R151). -/

namespace Sys2Proof.Machine

variable {s t : State}

/-! ### What the premise says of one step -/

/-- The completions the premise counts as owed after an event (70_reset_and_hazards.md R260). -/
def owedAfter (c : Config) (ledCount owed : Nat) : Event → Nat
  | .reset => 0
  | .setReport bytes ms => owed - handlerStepsIn c bytes ms
  | .getReport => owed
  | .tick => 24 * ledCount + 1
  | .txByteComplete => owed - 1
  | .restart => 0

theorem drainBeforeTick_cons (c : Config) (ledCount owed : Nat) (e : Event) (es : List Event) :
    DrainBeforeTick c ledCount owed (e :: es) = true ↔
      (e = .tick → owed = 0) ∧ DrainBeforeTick c ledCount (owedAfter c ledCount owed e) es = true := by
  cases e <;> simp [DrainBeforeTick, owedAfter]

/-- The premise counts the completions that the transmitter needs (42_transmitter.md R170). -/
theorem step_completionsOwed {e : Event} {rest : List Event} (hinv : s.Inv) (hin : s.inputs = e :: rest)
    (h : step s = .next t) : completionsOwed t = owedAfter s.cfg s.ledCount (completionsOwed s) e := by
  obtain ⟨-, -, hn, hcur, -, -⟩ := hinv
  rcases step_event_cases hin h with
    ⟨rfl, rfl⟩ | ⟨bytes, ms, i, rfl, hdec, rfl⟩ | ⟨rfl, rfl⟩ | ⟨rfl, rfl⟩ | ⟨rfl, rfl⟩ | ⟨rfl, rfl⟩
  · rfl
  · rw [owedAfter, handlerStepsIn_of_decode ms hdec]
    exact (after_counts i (s := (s.withInputs rest).withInterleave ms) hn hcur).2.2
  · rfl
  · rw [(owed_of_frame_start (tick_tx _)).2, tick_ledCount, State.withInputs_ledCount]
    rfl
  · exact (txByteComplete_counts (s := s.withInputs rest) hn hcur).2.2
  · rfl

/-- The premise holds of an event and those after it exactly if the event is no TICK during a frame and the
premise holds of those after it where the step leaves the block. -/
theorem drainBeforeTick_step {e : Event} {rest : List Event} (hinv : s.Inv) (hin : s.inputs = e :: rest)
    (h : step s = .next t) (es : List Event) :
    DrainBeforeTick s.cfg s.ledCount (completionsOwed s) (e :: es) = true ↔
      (e = .tick → s.tx.en = false) ∧
        DrainBeforeTick t.cfg t.ledCount (completionsOwed t) es = true := by
  obtain ⟨hcfg, hcount⟩ := noStepChangesTheParameters s t h
  rw [drainBeforeTick_cons, completionsOwed_eq_zero_iff, hcfg, hcount, step_completionsOwed hinv hin h]

/-- Settles O49: event by event the premise asks that a TICK finds no completion owed. -/
theorem drainBeforeTickMeansEveryTickFindsTheTransmitterIdle :
    Obligations.DrainBeforeTickMeansEveryTickFindsTheTransmitterIdle := by
  intro s t hinv hrun
  have halong : DrainBeforeTick s.cfg s.ledCount (completionsOwed s) s.inputs = true ↔
      AlongRun (fun u e => e = .tick → u.tx.en = false) s := by
    generalize hin : s.inputs = es at hrun
    induction es generalizing s with
    | nil => exact ⟨fun _ => alongRun_of_no_event hin, fun _ => by cases completionsOwed s <;> rfl⟩
    | cons e es ih =>
      obtain ⟨u, hu, hrun⟩ := run_succ_iff.1 hrun
      rw [alongRun_step hin hu, drainBeforeTick_step hinv hin hu,
        ih u (everyStepKeepsTheInvariant s u hinv hu) (step_inputs hin hu) hrun]
  rw [halong]
  exact ⟨fun h k u rest hk hu => h k u .tick rest hk hu rfl,
    fun h k u e rest hk hu he => h k u rest hk (he ▸ hu)⟩

/-! ### No overrun -/

/-- A good state without the fault, before events that drain each frame. -/
structure Drained (s : State) (es : List Event) : Prop where
  inv : s.Inv
  unfaulted : s.faultOverrun = false
  drain : DrainBeforeTick s.cfg s.ledCount (completionsOwed s) es = true

/-- A step leaves such a state, before the events that remain. -/
theorem Drained.step {e : Event} {rest es : List Event} (hd : Drained s (e :: es)) (hin : s.inputs = e :: rest)
    (h : step s = .next t) : Drained t es := by
  obtain ⟨htick, hdrain⟩ := (drainBeforeTick_step hd.inv hin h es).1 hd.drain
  refine ⟨everyStepKeepsTheInvariant s t hd.inv h, Bool.eq_false_iff.2 fun hfault => ?_, hdrain⟩
  rcases step_faultOverrun hin h hfault with hs | ⟨he, hen⟩
  · rw [hd.unfaulted] at hs
    cases hs
  · rw [htick he] at hen
    cases hen

theorem Drained.run {k : Nat} (hd : Drained s s.inputs) (h : Host.Core.run core k s = .next t) :
    Drained t t.inputs := by
  induction k generalizing s with
  | zero =>
    cases h
    exact hd
  | succ k ih =>
    obtain ⟨u, hu, hk⟩ := run_succ_iff.1 h
    cases hin : s.inputs with
    | nil =>
      rw [blockWaitsForAnEvent s hin] at hu
      cases hu
      exact ih hd hk
    | cons e rest =>
      have hnext := (hin ▸ hd).step hin hu
      rw [← step_inputs hin hu] at hnext
      exact ih hnext hk

/-- Settles O47: every step leaves a good state without the fault, before events that drain. -/
theorem noOverrunUnderDrainBeforeTick : Obligations.NoOverrunUnderDrainBeforeTick := by
  intro k s t hinv hfault hdrain hrun
  have hd : Drained t t.inputs := Drained.run ⟨hinv, hfault, hdrain⟩ hrun
  rw [faultOf, hd.unfaulted]
  rfl

/-! ### A fade among other events -/

/-- An event that is no TICK is no tick of an LED. -/
theorem map_ticks_of_ne {e : Event} (he : e ≠ .tick) (x : Option Led) :
    x.map (fadeStep^[[e].count .tick]) = x := by
  rw [List.count_eq_zero.2 (by simpa using he.symm), Function.iterate_zero, Option.map_id]
  rfl

/-- An event that leaves the fade of LED `j + 1` alone does nothing to the LED, or is its tick
(41_fade_tick.md R151). -/
theorem step_led {e : Event} {rest : List Event} {j : Nat} (hin : s.inputs = e :: rest)
    (hleaves : LeavesFade s.cfg s.ledCount (j + 1) e = true) (h : step s = .next t) :
    t.leds[j]? = s.leds[j]?.map (fadeStep^[[e].count .tick]) := by
  rcases step_event_cases hin h with
    ⟨rfl, -⟩ | ⟨bytes, ms, i, rfl, hdec, rfl⟩ | ⟨rfl, rfl⟩ | ⟨rfl, rfl⟩ | ⟨rfl, rfl⟩ | ⟨rfl, -⟩
  · cases hleaves
  · rw [map_ticks_of_ne (e := .setReport bytes ms) nofun]
    rcases after_cases i ((s.withInputs rest).withInterleave ms) with ⟨p, hi, -⟩ | ⟨-, hi⟩
    · have hmiss : Selects s.ledCount p.dest (j + 1) = false := by
        rcases hi with rfl | rfl <;> simpa [LeavesFade, hdec] using hleaves
      exact (after_fade_leds hi _ j).trans (if_neg (mt (selects_iff _ _ _).2 (by simp [hmiss])))
    · rw [hi]
      rfl
  · exact (map_ticks_of_ne (e := .getReport) nofun _).symm
  · rw [tick_leds]
    exact List.getElem?_map
  · rw [txByteComplete_leds]
    exact (map_ticks_of_ne (e := .txByteComplete) nofun _).symm
  · cases hleaves

/-- Through events that leave its fade alone an LED takes one tick per TICK. -/
theorem run_led {es rest : List Event} {j : Nat} (hin : s.inputs = es ++ rest)
    (hleaves : ∀ e ∈ es, LeavesFade s.cfg s.ledCount (j + 1) e = true)
    (h : Host.Core.run core es.length s = .next t) :
    t.leds[j]? = s.leds[j]?.map (fadeStep^[es.count .tick]) := by
  induction es generalizing s with
  | nil =>
    cases h
    simp
  | cons e es ih =>
    obtain ⟨u, hu, hrun⟩ := run_succ_iff.1 h
    obtain ⟨hcfg, hcount⟩ := noStepChangesTheParameters s u hu
    rw [ih (step_inputs hin hu) (fun e' he' => by rw [hcfg, hcount]; exact hleaves e' (by simp [he'])) hrun,
      step_led hin (hleaves e (by simp)) hu, Option.map_map, ← Function.iterate_add, Nat.add_comm,
      ← List.count_append]
    rfl

theorem Drained.run_append {es rest : List Event} (hd : Drained s es) (hin : s.inputs = es ++ rest)
    (h : Host.Core.run core es.length s = .next t) : Drained t [] := by
  induction es generalizing s with
  | nil =>
    cases h
    exact hd
  | cons e es ih =>
    obtain ⟨u, hu, hrun⟩ := run_succ_iff.1 h
    exact ih (hd.step hin hu) (step_inputs hin hu) hrun

/-! ### A commanded fade -/

/-- A report with a fade code decodes to a fade command (30_encoding.md R100). -/
theorem decodeReport_fade {c : Config} {r : Report} (hid : r.b0 = reportId)
    (hcode : r.b1 = c.codeFade ∨ r.b1 = c.codeFadeAlias) :
    decodeReport c r = .fade (payloadOf r) ∨ decodeReport c r = .fadeAlias (payloadOf r) := by
  rw [decodeReport_of_identifier c hid]
  by_cases hf : r.b1 = c.codeFade
  · exact .inl (if_pos hf)
  · exact .inr ((if_neg hf).trans (if_pos (hcode.resolve_left hf)))

/-- The step that takes a report with a fade code starts the fade on the LEDs its destination selects. -/
theorem step_fade_report {r : Report} {ms : List Micro} {rest : List Event} {j : Nat} {l : Led}
    (hin : s.inputs = .setReport (reportBytes r) ms :: rest) (hid : r.b0 = reportId)
    (hcode : r.b1 = s.cfg.codeFade ∨ r.b1 = s.cfg.codeFadeAlias) (hl : s.leds[j]? = some l)
    (h : step s = .next t) :
    t.leds[j]? = some
      (if Selects s.ledCount r.b7 (j + 1) = true then startFade (payloadOf r) l else l) := by
  rcases step_event_cases hin h with
    ⟨he, -⟩ | ⟨bytes, ms', i, he, hdec, rfl⟩ | ⟨he, -⟩ | ⟨he, -⟩ | ⟨he, -⟩ | ⟨he, -⟩ <;> cases he
  rw [decode_reportBytes] at hdec
  cases hdec
  rw [after_fade_leds (decodeReport_fade hid hcode)]
  by_cases hsel : Selects s.ledCount r.b7 (j + 1) = true
  · rw [if_pos hsel]
    exact (if_pos ((selects_iff _ _ _).1 hsel)).trans (by rw [← Option.map_some, ← hl]; rfl)
  · rw [if_neg hsel]
    exact (if_neg (mt (selects_iff _ _ _).2 hsel)).trans hl

theorem payloadOf_dur_ne_zero {r : Report} (h : r.b5 ≠ 0 ∨ r.b6 ≠ 0) : (payloadOf r).dur ≠ 0 := by
  refine BitVec.toNat_ne.2 ?_
  rw [payloadOf_dur_toNat]
  rcases h with h | h <;> have := BitVec.toNat_ne.1 h <;> simp at this ⊢ <;> omega

/-- Settles O26: the report starts the fade, each TICK is a tick of it, and after its ticks it has arrived;
an LED that is not selected has taken the same ticks of its own fade. -/
theorem commandedFadeArrivesAfterItsTicks : Obligations.CommandedFadeArrivesAfterItsTicks := by
  intro s t r ms es rest j l hinv hfault hin hid hcode hdur hl hleaves hticks hdrain hrun
  obtain ⟨u, hu, hrun⟩ := run_succ_iff.1 hrun
  have hd : Drained u es := Drained.step ⟨hinv, hfault, hdrain⟩ hin hu
  have hin' := step_inputs hin hu
  obtain ⟨hcfg, hcount⟩ := noStepChangesTheParameters s u hu
  have hled := run_led (j := j) hin' (by rwa [hcfg, hcount]) hrun
  rw [step_fade_report hin hid hcode hl hu, Option.map_some, hticks] at hled
  refine ⟨(hd.run_append hin' hrun).unfaulted, ?_⟩
  have hsel : Selects s.ledCount r.b7 (j + 1) = true ↔
      r.b7.toNat = 0 ∨ r.b7.toNat > s.ledCount ∨ r.b7.toNat = j + 1 := by
    simp [Selects, or_assoc]
  by_cases h : Selects s.ledCount r.b7 (j + 1) = true
  · have hdur' := payloadOf_dur_ne_zero hdur
    obtain ⟨hcs, hrem, -⟩ := fadesConvergeMonotonicallyAndStayPut l (colourOf (payloadOf r)) _ hdur'
    rw [if_pos h, startFade_ramp hdur', ← payloadOf_dur_toNat] at hled
    rw [if_pos (hsel.1 h), hled, Option.map_some, Option.map_some, hcs, hrem]
    exact ⟨rfl, rfl⟩
  · rw [if_neg h] at hled
    rw [if_neg (mt hsel.2 h), hled]

end Sys2Proof.Machine
end

section
/-! PROOFS. The fade state is invisible until a TICK (10_state.md section 2): every operation but the fade pass
answers two states that show the same colours, and differ in their fade state only, alike. -/

namespace Sys2Proof.Machine

variable {s t : State}

/-- Two states that differ at most in targets, counters, increments and fractions. -/
structure ShowsSame (s t : State) : Prop where
  rest : s.withLeds t.leds = t
  shown : s.leds.map (·.cs) = t.leds.map (·.cs)

namespace ShowsSame

theorem refl (s : State) : ShowsSame s s := ⟨rfl, rfl⟩

/-! ### What two such states agree on -/

section Agree

variable (h : ShowsSame s t)
include h

theorem cfg : t.cfg = s.cfg := by rw [← h.rest]; rfl
theorem stg : t.stg = s.stg := by rw [← h.rest]; rfl
theorem status : t.status = s.status := by rw [← h.rest]; rfl
theorem rstArmed : t.rstArmed = s.rstArmed := by rw [← h.rest]; rfl
theorem tx : t.tx = s.tx := by rw [← h.rest]; rfl
theorem wire : t.wire = s.wire := by rw [← h.rest]; rfl
theorem inBootloader : t.inBootloader = s.inBootloader := by rw [← h.rest]; rfl
theorem replies : t.replies = s.replies := by rw [← h.rest]; rfl
theorem inputs : t.inputs = s.inputs := by rw [← h.rest]; rfl
theorem interleave : t.interleave = s.interleave := by rw [← h.rest]; rfl

theorem ledCount : t.ledCount = s.ledCount := by
  simpa [State.ledCount] using (congrArg List.length h.shown).symm

theorem csByte (k : Nat) : t.csByte k = s.csByte k := (State.csByte_congr h.shown k).symm

/-- READ_LED reads a colour, never the fade state (43_commands.md R201). -/
theorem readColour (n : Nat) : readColour n t = readColour n s := by
  cases n with
  | zero => exact congrArg Staging.colour h.stg
  | succ i =>
    have hled := congrArg (·[i]?) h.shown
    simp only [List.getElem?_map] at hled
    simp only [Machine.readColour, State.led?]
    cases hs : s.leds[i]? <;> cases ht : t.leds[i]? <;> simp_all [h.stg]

end Agree

/-! ### What keeps them such -/

/-- An update of a field beside the LEDs. -/
theorem update (h : ShowsSame s t) {g : State → State} (hw : ∀ u x, (g u).withLeds x = g (u.withLeds x))
    (hl : ∀ u, (g u).leds = u.leds) : ShowsSame (g s) (g t) :=
  ⟨by rw [hl, hw, h.rest], by rw [hl, hl, h.shown]⟩

theorem withTx (h : ShowsSame s t) (x : Tx) : ShowsSame (s.withTx x) (t.withTx x) :=
  h.update (g := (State.withTx · x)) (fun _ _ => rfl) fun _ => rfl

theorem withWire (h : ShowsSame s t) (x : List Byte) : ShowsSame (s.withWire x) (t.withWire x) :=
  h.update (g := (State.withWire · x)) (fun _ _ => rfl) fun _ => rfl

theorem withStg (h : ShowsSame s t) (x : Staging) : ShowsSame (s.withStg x) (t.withStg x) :=
  h.update (g := (State.withStg · x)) (fun _ _ => rfl) fun _ => rfl

theorem withStatus (h : ShowsSame s t) (x : Report) : ShowsSame (s.withStatus x) (t.withStatus x) :=
  h.update (g := (State.withStatus · x)) (fun _ _ => rfl) fun _ => rfl

theorem withRstArmed (h : ShowsSame s t) (x : Bool) : ShowsSame (s.withRstArmed x) (t.withRstArmed x) :=
  h.update (g := (State.withRstArmed · x)) (fun _ _ => rfl) fun _ => rfl

theorem withReplies (h : ShowsSame s t) (x : List Report) : ShowsSame (s.withReplies x) (t.withReplies x) :=
  h.update (g := (State.withReplies · x)) (fun _ _ => rfl) fun _ => rfl

theorem withInputs (h : ShowsSame s t) (x : List Event) : ShowsSame (s.withInputs x) (t.withInputs x) :=
  h.update (g := (State.withInputs · x)) (fun _ _ => rfl) fun _ => rfl

theorem withInterleave (h : ShowsSame s t) (x : List Micro) :
    ShowsSame (s.withInterleave x) (t.withInterleave x) :=
  h.update (g := (State.withInterleave · x)) (fun _ _ => rfl) fun _ => rfl

/-- A change of the selected LEDs whose colour depends on the colour only. -/
theorem onLeds (h : ShowsSame s t) (n : Nat) {f : Led → Led} {F : Colour → Colour}
    (hf : ∀ l, (f l).cs = F l.cs) : ShowsSame (s.onLeds n f) (t.onLeds n f) := by
  have hmap : ∀ x : Option Led, (x.map f).map (·.cs) = (x.map (·.cs)).map F := fun x => by
    cases x <;> simp [hf]
  refine ⟨?_, List.ext_getElem? fun j => ?_⟩
  · calc (s.onLeds n f).withLeds (t.onLeds n f).leds
        = (s.withLeds t.leds).withLeds (t.onLeds n f).leds := by rw [State.onLeds_eq s]; rfl
      _ = t.onLeds n f := by rw [h.rest, ← State.onLeds_eq]
  · have hled := congrArg (·[j]?) h.shown
    simp only [List.getElem?_map] at hled
    rw [List.getElem?_map, List.getElem?_map, State.onLeds_getElem?, State.onLeds_getElem?]
    split
    · rw [hmap, hmap, hled]
    · exact hled

/-- A step of the handler reads the colours, and no fade state (42_transmitter.md R166). -/
theorem txByteComplete (h : ShowsSame s t) : ShowsSame (txByteComplete s) (txByteComplete t) := by
  have hshift : ∀ {u v : State}, ShowsSame u v → ShowsSame (txShift u) (txShift v) := fun {u v} h => by
    rw [txShift, txShift, State.emit, State.emit, h.tx, h.cfg, State.withTx_wire, State.withTx_wire, h.wire]
    exact (h.withTx _).withWire _
  have hload : ShowsSame (txLoad s) (txLoad t) := by
    rw [txLoad, txLoad, h.tx, h.csByte]
    exact h.withTx _
  have hfinish : ShowsSame (txFinish s) (txFinish t) := by
    rw [txFinish, txFinish, h.tx]
    exact h.withTx _
  have hexhausted : txExhausted t = txExhausted s := by rw [txExhausted, h.tx, h.ledCount, txExhausted]
  simp only [Machine.txByteComplete, h.tx, hexhausted]
  split
  · split
    · split
      · exact hfinish
      · exact hshift hload
    · exact hshift h
  · exact h

theorem microRun (h : ShowsSame s t) (n : Nat) (target : Colour) (ms : List Micro) :
    ShowsSame (microRun n target s ms) (microRun n target t ms) := by
  induction ms generalizing s t with
  | nil => exact h
  | cons m ms ih =>
    refine ih ?_
    cases m with
    | handler => exact h.txByteComplete
    | write k =>
      simp only [microStep]
      split
      · exact h.onLeds _ (F := fun c => c.set (target.get (channelOfOffset k)) (channelOfOffset k)) fun _ => rfl
      · exact h

theorem fadeCommand (h : ShowsSame s t) (p : Payload) : ShowsSame (fadeCommand p s) (fadeCommand p t) := by
  have hstage : ShowsSame (stage p s) (stage p t) := by
    rw [stage, stage, h.ledCount]
    exact h.withStg _
  by_cases hdur : p.dur = 0
  · rw [fadeCommand_now hdur, fadeCommand_now hdur, h.ledCount, immediateSet, immediateSet,
      hstage.interleave]
    exact (hstage.microRun _ _ _).onLeds _ (F := fun _ => colourOf p) fun _ => rfl
  · rw [fadeCommand_ramp hdur, fadeCommand_ramp hdur, h.ledCount]
    exact hstage.onLeds _ (F := id) fun _ => rfl

theorem after (h : ShowsSame s t) (i : Instr) : ShowsSame (after i s) (after i t) := by
  cases i with
  | fade p => simp only [Machine.after, h.cfg]; exact (h.withStatus _).fadeCommand p
  | fadeAlias p => simp only [Machine.after, h.cfg]; exact (h.withStatus _).fadeCommand p
  | armReset p => simp only [Machine.after, h.cfg]; exact (h.withStatus _).withRstArmed true
  | version p => simp only [Machine.after, h.cfg]; exact h.withStatus _
  | readLed p => simp only [Machine.after, h.cfg, h.ledCount, h.readColour]; exact h.withStatus _
  | nop code p => simp only [Machine.after, h.cfg]; exact h.withStatus _
  | discard rid code p => exact h

theorem getReport (h : ShowsSame s t) : ShowsSame (getReport s) (getReport t) := by
  rw [Machine.getReport, Machine.getReport, h.replies, h.status]
  exact h.withReplies _

theorem resetBlock (h : ShowsSame s t) : resetBlock t = resetBlock s := by
  rw [Machine.resetBlock, Machine.resetBlock, h.cfg, h.ledCount, h.inputs, h.replies]

end ShowsSame

/-! ### The step -/

/-- Two outcomes that refuse alike, or take the event to states that show the same. -/
def SameAnswer (a b : Host.Outcome State Fault Refusal) : Prop :=
  (∃ r, a = .refused r ∧ b = .refused r) ∨ ∃ u v, a = .next u ∧ b = .next v ∧ ShowsSame u v

theorem SameAnswer.next (h : ShowsSame s t) : SameAnswer (.next s) (.next t) := .inr ⟨s, t, rfl, rfl, h⟩

theorem SameAnswer.refused (r : Refusal) : SameAnswer (.refused r) (.refused r) := .inl ⟨r, rfl, rfl⟩

theorem ShowsSame.deliverRunning (h : ShowsSame s t) {e : Event} (he : e ≠ .tick) :
    SameAnswer (deliverRunning e s) (deliverRunning e t) := by
  cases e with
  | tick => exact absurd rfl he
  | reset =>
    rw [Machine.deliverRunning, Machine.deliverRunning, h.resetBlock]
    exact .next (.refl _)
  | setReport bytes ms =>
    rw [Machine.deliverRunning, Machine.deliverRunning]
    by_cases hlen : bytes.length = 8
    · obtain ⟨r, rfl⟩ := exists_reportBytes hlen
      rw [setReport_reportBytes, setReport_reportBytes, h.cfg]
      exact .next ((h.withInterleave ms).after _)
    · simp only [setReport, (decode_eq_error_iff _ bytes).2 hlen]
      exact .refused _
  | getReport => exact .next h.getReport
  | txByteComplete =>
    simp only [Machine.deliverRunning, completion, h.tx]
    split
    · exact .next h.txByteComplete
    · exact .refused _
  | restart =>
    simp only [Machine.deliverRunning, restart, h.rstArmed, h.resetBlock]
    split
    · exact .next (.refl _)
    · exact .refused _

/-- Settles O48: every event but TICK answers states that show the same alike. -/
theorem fadeStateIsInvisibleUntilATick : Obligations.FadeStateIsInvisibleUntilATick := by
  intro s₁ s₂ e rest hin he hrest hshown
  have h : ShowsSame s₁ s₂ := ⟨hrest, hshown⟩
  suffices hsame : SameAnswer (step s₁) (step s₂) from
    hsame.imp_right fun ⟨u, v, hu, hv, huv⟩ => ⟨u, v, hu, hv, huv.rest, huv.shown⟩
  have hin' := h.inputs.trans hin
  cases hrun : s₁.inBootloader with
  | true =>
    rw [step_ended hin hrun, step_ended hin' (h.inBootloader.trans hrun), (h.withInputs rest).resetBlock]
    split
    · exact .next (.refl _)
    · exact .refused _
  | false =>
    rw [step_event hin hrun, step_event hin' (h.inBootloader.trans hrun)]
    exact (h.withInputs rest).deliverRunning he

end Sys2Proof.Machine
end
